-- ==== Sys2Proof/Word.lean ====
section
/-! DEFINITION. The word types of RDQ (spec/00_scope.md R12, R15; spec/30_encoding.md R52). -/

namespace Sys2Proof

/-- A `u8`: a byte of a plane, a luma or an 8-bit channel (R12). -/
abbrev Byte := BitVec 8

/-- A 5-bit channel of an RGB555 colour (R18, R56). -/
abbrev Chan5 := BitVec 5

/-- A palette entry, written as its ordinal in [0,15] (R15), or a packed nibble (R16). -/
abbrev Entry := BitVec 4

/-- A 32-bit word of a command (R52). -/
abbrev Word32 := BitVec 32

/-- A command: the 96-bit vector `cmd[95:0]` (R52). -/
abbrev Command := BitVec 96

/-- A 24-bit RGB triple, 8 bits a channel (R18, R30). -/
structure Rgb where
  r : Byte
  g : Byte
  b : Byte
deriving DecidableEq, Repr

end Sys2Proof
end

