-- ==== Sys2Proof/Syntax.lean ====
section
/-! DEFINITION. The commands of RDQ, one constructor per row of the opcode table (spec/30_encoding.md R62), and the
reasons a command can be illegal (R64). -/

namespace Sys2Proof

/-- The nine commands of R62, with the operands of their formats (R55 to R60). The coordinates of WRPT are the
mathematical values of the two `s32` operands (R14, R59); `WellFormed.lean` holds their range. -/
inductive Instr where
  /-- QGRAY L: grayscale to palette entry (R74). -/
  | qgray (l : Byte)
  /-- Q15 R5, G5, B5: 15-bit RGB to palette entry (R75). -/
  | q15 (r g b : Chan5)
  /-- Q24 R8, G8, B8: 24-bit RGB to palette entry (R76). -/
  | q24 (r g b : Byte)
  /-- TORGB e: palette entry to its canonical 24-bit RGB (R78). -/
  | torgb (e : Entry)
  /-- PACK e: palette entry to 4-bit value (R80). -/
  | pack (e : Entry)
  /-- UNPACK n: 4-bit value to palette entry (R81). -/
  | unpack (n : Entry)
  /-- DIM: report the surface dimensions (R86). -/
  | dim
  /-- WRPT X, Y, e: write one coloured point (R87). -/
  | wrpt (x y : Int) (e : Entry)
  /-- CLEAR e: fill every cell with one entry (R88). -/
  | clear (e : Entry)
deriving DecidableEq, Repr

/-- Why a command is illegal (R64), or why bytes are no command (R53, R65). -/
inductive DecodeError where
  /-- `OP` is 0x0 or 0xA to 0xF (R64). -/
  | reservedOpcode (op : BitVec 4)
  /-- `OP` is assigned, but a must-be-zero bit of its format is set (R55 to R60, R64). -/
  | reservedBits (op : BitVec 4)
  /-- The transport carried a number of bytes other than 12 (R53, R65). -/
  | notTwelveBytes (count : Nat)
deriving DecidableEq, Repr

/-- The 16 names of the default name table (R29), labels of ordinals 0 to 15 in this order. -/
inductive EntryName where
  | black | white | red | cyan | purple | green | blue | yellow
  | orange | brown | lightRed | darkGray | gray | lightGreen | lightBlue | lightGray
deriving DecidableEq, Repr

end Sys2Proof
end

