-- ==== Sys2Proof/Decode.lean ====
section
/-! DEFINITION. The command encoding (spec/30_encoding.md): the words and bytes of a command, the decoder, the
opcode table of R62 and the encoder. The spec's own layout (D12, D13, D28; log entries 18 and 19). -/

namespace Sys2Proof

/-- `W0 = cmd[31:0]` (R52). -/
def Command.w0 (c : Command) : Word32 := c.extractLsb' 0 32

/-- `W1 = cmd[63:32]` (R52). -/
def Command.w1 (c : Command) : Word32 := c.extractLsb' 32 32

/-- `W2 = cmd[95:64]` (R52). -/
def Command.w2 (c : Command) : Word32 := c.extractLsb' 64 32

/-- The command made of the words `W0`, `W1`, `W2` (R52, R53). -/
def Command.ofWords (w0 w1 w2 : Word32) : Command := w2 ++ w1 ++ w0

/-- Byte `k` of the byte transport, k = 0 to 11: `cmd[8k+7 : 8k]` (R53). -/
def Command.byte (c : Command) (k : Nat) : Byte := c.extractLsb' (8 * k) 8

/-- The twelve bytes of the byte transport, byte 0 first (R53). -/
def Command.toBytes (c : Command) : List Byte := (List.range 12).map c.byte

/-- The command that twelve transported bytes carry (R53); none for another number of bytes (R65). -/
def Command.ofBytes : List Byte → Option Command
  | [b0, b1, b2, b3, b4, b5, b6, b7, b8, b9, b10, b11] =>
    some (b11 ++ b10 ++ b9 ++ b8 ++ b7 ++ b6 ++ b5 ++ b4 ++ b3 ++ b2 ++ b1 ++ b0)
  | _ => none

/-- A must-be-zero check: the command is legal only where the check holds (R63, R64). -/
def mustBeZero (zero : Bool) (op : BitVec 4) (i : Instr) : Except DecodeError Instr :=
  if zero then .ok i else .error (.reservedBits op)

/-- The decoder (R63): total on every 96-bit vector. `OP` selects the operation (R62), each format's reserved bits
must be zero (R55 to R60), and `W1` and `W2` are looked at by WRPT alone (R61). -/
def decode (c : Command) : Except DecodeError Instr :=
  let w := c.w0
  let op := w.extractLsb' 0 4
  let e := w.extractLsb' 4 4
  let eZero := e == 0#4
  let dZero := w.extractLsb' 8 24 == 0#24
  match op with
  | 0x1#4 => mustBeZero (eZero && w.extractLsb' 16 16 == 0#16) op (.qgray (w.extractLsb' 8 8))
  | 0x2#4 => mustBeZero (eZero && w.extractLsb' 23 9 == 0#9) op
      (.q15 (w.extractLsb' 18 5) (w.extractLsb' 13 5) (w.extractLsb' 8 5))
  | 0x3#4 => mustBeZero eZero op (.q24 (w.extractLsb' 24 8) (w.extractLsb' 16 8) (w.extractLsb' 8 8))
  | 0x4#4 => mustBeZero dZero op (.torgb e)
  | 0x5#4 => mustBeZero dZero op (.pack e)
  | 0x6#4 => mustBeZero dZero op (.unpack e)
  | 0x7#4 => mustBeZero (eZero && dZero) op .dim
  | 0x8#4 => mustBeZero dZero op (.wrpt c.w1.toInt c.w2.toInt e)
  | 0x9#4 => mustBeZero dZero op (.clear e)
  | _ => .error (.reservedOpcode op)

/-- The decoder on the byte transport (R53): total on any bytes. -/
def decodeBytes (bytes : List Byte) : Except DecodeError Instr :=
  match Command.ofBytes bytes with
  | some c => decode c
  | none => .error (.notTwelveBytes bytes.length)

/-- `W0 = {D, E, OP}` (R54). -/
def wordZero (d : BitVec 24) (e op : BitVec 4) : Word32 := d ++ e ++ op

/-- The opcode of a command (R62). -/
def Instr.opcode : Instr → BitVec 4
  | .qgray _ => 0x1#4
  | .q15 _ _ _ => 0x2#4
  | .q24 _ _ _ => 0x3#4
  | .torgb _ => 0x4#4
  | .pack _ => 0x5#4
  | .unpack _ => 0x6#4
  | .dim => 0x7#4
  | .wrpt _ _ _ => 0x8#4
  | .clear _ => 0x9#4

/-- The field `D` of a command (R55 to R57, R69): 0 for the formats FE, FP and FN. -/
def Instr.dataField : Instr → BitVec 24
  | .qgray l => 0#16 ++ l
  | .q15 r g b => 0#9 ++ r ++ g ++ b
  | .q24 r g b => r ++ g ++ b
  | .torgb _ => 0#24
  | .pack _ => 0#24
  | .unpack _ => 0#24
  | .dim => 0#24
  | .wrpt _ _ _ => 0#24
  | .clear _ => 0#24

/-- The field `E` of a command (R58, R59, R69): the entry or nibble for FE and FP, 0 otherwise. -/
def Instr.entryField : Instr → BitVec 4
  | .qgray _ => 0#4
  | .q15 _ _ _ => 0#4
  | .q24 _ _ _ => 0#4
  | .torgb e => e
  | .pack e => e
  | .unpack n => n
  | .dim => 0#4
  | .wrpt _ _ e => e
  | .clear e => e

/-- `W1` of a command: X mod 2^32 for WRPT, 0 otherwise (R69). -/
def Instr.xField : Instr → Word32
  | .wrpt x _ _ => BitVec.ofInt 32 x
  | .qgray _ => 0#32
  | .q15 _ _ _ => 0#32
  | .q24 _ _ _ => 0#32
  | .torgb _ => 0#32
  | .pack _ => 0#32
  | .unpack _ => 0#32
  | .dim => 0#32
  | .clear _ => 0#32

/-- `W2` of a command: Y mod 2^32 for WRPT, 0 otherwise (R69). -/
def Instr.yField : Instr → Word32
  | .wrpt _ y _ => BitVec.ofInt 32 y
  | .qgray _ => 0#32
  | .q15 _ _ _ => 0#32
  | .q24 _ _ _ => 0#32
  | .torgb _ => 0#32
  | .pack _ => 0#32
  | .unpack _ => 0#32
  | .dim => 0#32
  | .clear _ => 0#32

/-- The encoder (R69). -/
def encode (i : Instr) : Command :=
  Command.ofWords (wordZero i.dataField i.entryField i.opcode) i.xField i.yField

/-- The match of a command's row in the opcode table: `(W0 & mask) == match` (R62, R63). -/
def Instr.rowMatch : Instr → Word32
  | .qgray _ => 0x00000001#32
  | .q15 _ _ _ => 0x00000002#32
  | .q24 _ _ _ => 0x00000003#32
  | .torgb _ => 0x00000004#32
  | .pack _ => 0x00000005#32
  | .unpack _ => 0x00000006#32
  | .dim => 0x00000007#32
  | .wrpt _ _ _ => 0x00000008#32
  | .clear _ => 0x00000009#32

/-- The mask of a command's row in the opcode table (R62). -/
def Instr.rowMask : Instr → Word32
  | .qgray _ => 0xFFFF00FF#32
  | .q15 _ _ _ => 0xFF8000FF#32
  | .q24 _ _ _ => 0x000000FF#32
  | .torgb _ => 0xFFFFFF0F#32
  | .pack _ => 0xFFFFFF0F#32
  | .unpack _ => 0xFFFFFF0F#32
  | .dim => 0xFFFFFFFF#32
  | .wrpt _ _ _ => 0xFFFFFF0F#32
  | .clear _ => 0xFFFFFF0F#32

/-- The nine rows of R62, each as (match, mask). -/
def opcodeRows : List (Word32 × Word32) :=
  [(0x00000001#32, 0xFFFF00FF#32), (0x00000002#32, 0xFF8000FF#32), (0x00000003#32, 0x000000FF#32),
   (0x00000004#32, 0xFFFFFF0F#32), (0x00000005#32, 0xFFFFFF0F#32), (0x00000006#32, 0xFFFFFF0F#32),
   (0x00000007#32, 0xFFFFFFFF#32), (0x00000008#32, 0xFFFFFF0F#32), (0x00000009#32, 0xFFFFFF0F#32)]

/-- The command whose low `nbits` bits are those of `w` and whose other bits are 0. -/
def commandOfTable (nbits w : Nat) : Command := BitVec.ofNat 96 (w % 2 ^ nbits)

/-- The instruction the decoder reads from the command whose bits are `w`, carried over the byte transport. -/
def decodeTableWord (nbits w : Nat) : Option Instr :=
  match decodeBytes (commandOfTable nbits w).toBytes with
  | .ok i => some i
  | .error _ => none

end Sys2Proof
end

