-- ==== Sys2Proof/Config.lean ====
section
/-! DEFINITION. The implementation parameters of RDQ (spec/00_scope.md R10), as plain data. OPEN in R10 "means the
model takes it as an argument": the machine's state carries one `Config`, every step reads it and none changes it
(spec/70_reset_and_hazards.md R109), so a statement about every state is a statement about every value of every
parameter. The spec's default values stand in Machine/Parameters.lean, beside the admission check of R11. -/

namespace Sys2Proof

/-- What a read of bits 7:4 of a colour-plane byte returns (R10, R40). -/
inductive ColorHiRead where
  /-- The bits last written there (the default). -/
  | asWritten
  /-- A free draw at each read. -/
  | anyValue
deriving DecidableEq, Repr

/-- The parameters of R10 that are OPEN. `COLS`, `ROWS`, `CELLS`, `NENT` and `COORD_W` are fixed and stand in
Machine/Parameters.lean and in the types. -/
structure Config where
  /-- `ADDR_W`: width of the byte address of the write port (R34). -/
  addrW : Nat
  /-- `GLYPH_BASE`: byte address of glyph-plane offset 0 (R35). -/
  glyphBase : Nat
  /-- `COLOR_BASE`: byte address of colour-plane offset 0 (R36). -/
  colorBase : Nat
  /-- `FILLED_GLYPH`: the filled-block glyph byte (R32). -/
  filledGlyph : Byte
  /-- `PALETTE_RGB`: entry to canonical RGB triple, exactly 16 rows (R11, R30). -/
  paletteRgb : Vector Rgb 16
  /-- `GRAY_ENTRY[0..4]`: the entries of the five grayscale bands, each in [0,15] (R11, R31). -/
  grayEntry : Vector Entry 5
  /-- `LUMA24` as data (R72): where it differs from the spec's default formula, the first row that lists a
  colour gives its luma. Every total function of (R8, G8, B8) has such a list. -/
  lumaRows : List (Rgb × Byte)
  /-- `EXPAND5` as data (R73): its 32 values. -/
  expandRows : Vector Byte 32
  /-- `COLOR_HI_READ` (R40). -/
  colorHiRead : ColorHiRead
deriving DecidableEq, Repr

end Sys2Proof
end

