-- ==== Sys2Proof/Machine/Parameters.lean ====
section
/-! DEFINITION. The fixed sizes of the surface, the spec's default parameter values (spec/00_scope.md R10) and the
admission check of a configuration (R11). Every default is marked "from general knowledge, not in source" by the
spec: log entries 1 to 6. -/

namespace Sys2Proof

/-- `COLS`: surface columns (R10). -/
abbrev cols : Nat := 40

/-- `ROWS`: surface rows (R10). -/
abbrev rows : Nat := 25

/-- `CELLS`: cells per plane (R10). -/
abbrev cells : Nat := 1000

/-- The default of `LUMA24` (R72): `floor((77*R8 + 150*G8 + 29*B8 + 128) / 256)`. PRESUMED by the spec's own mark:
log entry 4. -/
def luma24Default (c : Rgb) : Byte :=
  BitVec.ofNat 8 ((77 * c.r.toNat + 150 * c.g.toNat + 29 * c.b.toNat + 128) / 256)

/-- The default of `EXPAND5` (R73): `floor((c*255 + 15) / 31)`. PRESUMED: log entry 5. -/
def expand5Default (c : Nat) : Byte := BitVec.ofNat 8 ((c * 255 + 15) / 31)

/-- The default of `PALETTE_RGB` (R30), rows 0 to 15; row 6 is the source's. PRESUMED but for row 6: log entry 2. -/
def paletteDefault : Vector Rgb 16 :=
  #v[⟨0, 0, 0⟩, ⟨255, 255, 255⟩, ⟨136, 0, 0⟩, ⟨170, 255, 238⟩,
     ⟨204, 68, 204⟩, ⟨0, 204, 85⟩, ⟨0, 0, 170⟩, ⟨238, 238, 119⟩,
     ⟨221, 136, 85⟩, ⟨102, 68, 0⟩, ⟨255, 119, 119⟩, ⟨51, 51, 51⟩,
     ⟨119, 119, 119⟩, ⟨170, 255, 102⟩, ⟨0, 136, 255⟩, ⟨187, 187, 187⟩]

/-- The default of `GRAY_ENTRY` (R31): Black, DarkGray, Gray, LightGray, White. PRESUMED: log entry 3. -/
def grayDefault : Vector Entry 5 := #v[0, 11, 12, 15, 1]

/-- The configuration of the defaults of R10. PRESUMED: log entries 1 to 6. -/
def Config.default : Config where
  addrW := 16
  glyphBase := 0x0400
  colorBase := 0xD800
  filledGlyph := 0xA0
  paletteRgb := paletteDefault
  grayEntry := grayDefault
  lumaRows := []
  expandRows := Vector.ofFn fun c => expand5Default c.val
  colorHiRead := .asWritten

/-- Parameter validity (R11): both planes lie in the address space and are disjoint. The 16 rows of `PALETTE_RGB`,
the range of `GRAY_ENTRY` and the totality of `LUMA24` and `EXPAND5` hold by the types of `Config`. The last two
checks are the constraints of R30 and of R10's row: 16 distinct rows, row 6 (Blue) = (0, 0, 170) (log entry 2).
Equal entries of neighbouring grayscale bands are admitted: DESIGN CHOICE, safe (log entry 3). -/
def Config.admitted (c : Config) : Bool :=
  decide (c.glyphBase + cells - 1 < 2 ^ c.addrW) &&
  decide (c.colorBase + cells - 1 < 2 ^ c.addrW) &&
  decide (c.glyphBase + cells ≤ c.colorBase ∨ c.colorBase + cells ≤ c.glyphBase) &&
  decide c.paletteRgb.toList.Nodup &&
  decide (c.paletteRgb[6] = ⟨0, 0, 170⟩)

end Sys2Proof
end

