-- ==== Sys2Proof/Machine/State.lean ====
section
/-! DEFINITION. The state of the machine: the two planes in the write-port address space and the configuration
(spec/10_state.md R24, R33), and what stands on RDQ's ports. RDQ has no register, program counter, flag, control
register, mode or exception state (R20 to R23, spec/60_exceptions.md R93, R101), so none is here. -/

namespace Sys2Proof.Machine

/-- The `status` of a response (spec/30_encoding.md R66). `Status.line` gives its value on the 1-bit line. -/
inductive Status where
  | ok
  | illegal
deriving DecidableEq, Repr

/-- A response `(status, value)` with `value : u24` (R66). -/
structure Response where
  status : Status
  value : BitVec 24
deriving DecidableEq, Repr

/-- The bytes of the write-port space as (address, byte) pairs, addresses strictly rising. An address that is not
listed has no value in the model: its byte is a launch content the model says nothing of (spec/10_state.md R27,
log entry 7). -/
abbrev Memory := List Host.Cell

/-- What can arrive at RDQ from outside, between two commands (log entries 8, 13 and 14). -/
inductive Input where
  /-- The host presents a command on the command port (R52, spec/70_reset_and_hazards.md R112). -/
  | command (c : Command)
  /-- A reset between two commands (R107, R108). -/
  | reset
  /-- A reset while the command is in progress (R110). -/
  | resetDuring (c : Command)
  /-- A second agent issues the command to the same RDQ (R114). -/
  | secondHost (c : Command)
  /-- An agent other than RDQ writes a byte, in the spec's case one of a plane (R114). Nothing here holds `a` to the
  planes: what happens at another address is a DESIGN CHOICE (log entry 14). -/
  | foreignPlaneWrite (a : Nat) (v : Byte)
deriving DecidableEq, Repr

/-- Everything that stops the machine as a fault. There is no constructor: the list of exception causes is empty
(spec/60_exceptions.md R93, R94; spec/93_implementation_defined.md: no behaviour is a fault or stuck). Safe: a
claim that RDQ never faults is the spec's own (log entry 22). -/
inductive Fault where
deriving DecidableEq, Repr

/-- The reasons the model gives no next state. -/
inductive Refusal where
  /-- An instruction with no meaning yet. Raised by no arm of `exec`. Safe: nothing is proved of such a run. -/
  | notModelled (mnemonic : String)
  /-- The command decodes to no row of the opcode table: RDQ answers `answer`, which is `(ILLEGAL, 0)`, and changes
  nothing, and a model treats the command as a refusal (R95). Raised by `runCommand`. Safe: a run that contains one
  proves nothing about the commands after it (log entry 11). -/
  | illegalCommand (why : DecodeError) (answer : Response)
  /-- The configuration is not admitted (R11). Raised by `proceed`, so by every step. Safe: such a configuration has
  no claims (log entry 12). -/
  | configurationNotAdmitted
  /-- A reset during a command (R110). Raised by `accept`. Safe: such a run has no claims (log entry 13). -/
  | resetDuringCommand
  /-- A second agent issues commands (R114). Raised by `accept`. Safe: such a run has no claims (log entry 14). -/
  | secondHost
  /-- An agent other than RDQ writes a plane (R114), or, by the model's choice, any other address (log entry 14).
  Raised by `accept`. Safe: such a run has no claims. -/
  | foreignPlaneWrite
  /-- The host is to pass on a response value and no response stands on the port. Raised by `runHost` alone, never by
  `step` and by no pseudo-instruction of R68. Safe: such a run has no claims (log entry 21). -/
  | noResponseToPass
deriving DecidableEq, Repr

/-- The state of the machine. `config` and `mem` are the spec's (R33); the other fields are what stands on the ports
at the end of a step, and no command reads them. -/
structure State where
  /-- The configuration, fixed before reset and never changed (R10, R33, R109). -/
  config : Config
  /-- The bytes of the write-port space that RDQ wrote or the launch listed: the glyph plane at `GLYPH_BASE + off`,
  the colour plane at `COLOR_BASE + off` (R24, R27, R34). -/
  mem : Memory
  /-- The response port: the response of the last step's command, no value where it served none (R26, R33, R66; log
  entry 9). -/
  resp : Option Response
  /-- The write port: the byte writes the last step issued, in the order issued (R34, R43; log entry 10). -/
  writePort : List Host.Cell
  /-- The command port: what the outside presents from here on, the next first (R52, R112; log entry 8). -/
  inputs : List Input
deriving DecidableEq, Repr

/-- Right after reset (R33, R107, R108): idle, no response, no write issued, the configuration at its configured
values (the spec's defaults, log entries 1 to 6), no byte of the planes known (R27, log entry 7), nothing presented. -/
def State.reset : State where
  config := Config.default
  mem := []
  resp := none
  writePort := []
  inputs := []

end Sys2Proof.Machine
end

