-- ==== Sys2Proof/Machine/Operands.lean ====
section
/-! DEFINITION. The pure functions the commands apply to their operands: grayscale bands and luma
(spec/40_palette_quantizer.md R71 to R73), the palette table (R78), the bounds check and the offset
(spec/41_display_write_controller.md R83, R84). All are total (R70). -/

namespace Sys2Proof

/-- `band(L)` (R71). -/
def band (l : Byte) : Fin 5 :=
  if l.toNat ≤ 31 then 0
  else if l.toNat ≤ 63 then 1
  else if l.toNat ≤ 95 then 2
  else if l.toNat ≤ 127 then 3
  else 4

/-- `quant_gray(L) = GRAY_ENTRY[band(L)]` (R71). -/
def Config.quantGray (c : Config) (l : Byte) : Entry := c.grayEntry[band l]

/-- `LUMA24(R8, G8, B8)` (R72): the row that lists the colour, else the default formula. -/
def Config.luma24 (c : Config) (r g b : Byte) : Byte :=
  match c.lumaRows.lookup ⟨r, g, b⟩ with
  | some l => l
  | none => luma24Default ⟨r, g, b⟩

/-- `EXPAND5(c)` (R73). -/
def Config.expand5 (c : Config) (v : Chan5) : Byte := c.expandRows[v.toFin]

/-- `LUMA15(R5, G5, B5)`: each channel expanded, then the 24-bit luma (R73; the spec's reading D26). -/
def Config.luma15 (c : Config) (r g b : Chan5) : Byte :=
  c.luma24 (c.expand5 r) (c.expand5 g) (c.expand5 b)

/-- `PALETTE_RGB[e]` (R30, R78). -/
def Config.rgbOf (c : Config) (e : Entry) : Rgb := c.paletteRgb[e.toFin]

/-- `{R, G, B}`: R in bits 23:16, G in 15:8, B in 7:0 (R66, R78). -/
def Rgb.word (c : Rgb) : BitVec 24 := c.r ++ c.g ++ c.b

/-- `{0x00, ROWS, COLS}` (R66, R86). -/
def dimensionWord : BitVec 24 := 0x00#8 ++ BitVec.ofNat 8 rows ++ BitVec.ofNat 8 cols

/-- `inbounds(X, Y)`, on the mathematical values (R14, R83). -/
def inbounds (x y : Int) : Bool :=
  decide (0 ≤ x) && decide (x < cols) && decide (0 ≤ y) && decide (y < rows)

/-- `offset(X, Y) = X + Y*40` (R84), used only for an in-bounds pair. -/
def offset (x y : Int) : Nat := (x + y * cols).toNat

/-- The cells (x, y) in CLEAR's order: rows outer, columns inner (R88). -/
def cellsInOrder : List (Nat × Nat) :=
  (List.range rows).flatMap fun y => (List.range cols).map fun x => (x, y)

/-- The ordinal of a name of the default name table (R29). -/
def EntryName.ordinal : EntryName → Entry
  | .black => 0
  | .white => 1
  | .red => 2
  | .cyan => 3
  | .purple => 4
  | .green => 5
  | .blue => 6
  | .yellow => 7
  | .orange => 8
  | .brown => 9
  | .lightRed => 10
  | .darkGray => 11
  | .gray => 12
  | .lightGreen => 13
  | .lightBlue => 14
  | .lightGray => 15

end Sys2Proof
end

