-- ==== Sys2Proof/Machine/Ops.lean ====
section
/-! DEFINITION. The named operations over memory and ports: one byte read and written, the pair commit
(spec/41_display_write_controller.md R85), the completion every command ends in, the idle step and reset, and the
observer's `MemRead` (spec/20_memory.md R40). There is no exception entry or return to model
(spec/60_exceptions.md R93, R97, R98). -/

namespace Sys2Proof.Machine

/-- The form of a memory: addresses strictly rising (log entry 7). -/
abbrev Memory.wf (m : Memory) : Prop := m.Pairwise fun p q => p.1 < q.1

/-- The byte at an address; none where the launch contents are all there is (R27, log entry 7). -/
def Memory.read : Memory → Nat → Option Byte
  | [], _ => none
  | (b, w) :: m, a => if b = a then some w else Memory.read m a

/-- `MemWrite(a, 1, v)` (R13): the byte at `a` becomes `v`, no other byte changes (R44). -/
def Memory.write : Memory → Nat → Byte → Memory
  | [], a, v => [(a, v)]
  | (b, w) :: m, a, v =>
    if a < b then (a, v) :: (b, w) :: m
    else if a = b then (a, v) :: m
    else (b, w) :: Memory.write m a v

/-- The writes of a list, performed in its order (R47). -/
def Memory.writeAll (m : Memory) (ws : List Host.Cell) : Memory :=
  ws.foldl (fun acc p => acc.write p.1 p.2) m

/-- The `n` bytes from address `a` on become `v`, no other byte changes: the end state of `n` writes of one byte. -/
def Memory.fill (m : Memory) (a n : Nat) (v : Byte) : Memory :=
  m.filter (fun p => decide (p.1 < a)) ++ (List.range n).map (fun k => (a + k, v)) ++
    m.filter (fun p => decide (a + n ≤ p.1))

/-- `PairCommit(off, e)` (R85): the two byte writes of one write point, the colour byte `zext_8(e)` first, the glyph
byte `FILLED_GLYPH` second (R37, R38, R43). -/
def pairCommit (c : Config) (off : Nat) (e : Entry) : List Host.Cell :=
  [(c.colorBase + off, e.setWidth 8), (c.glyphBase + off, c.filledGlyph)]

/-- The writes of a write point (R87): one pair commit where the coordinate is in bounds, none where it is not. -/
def pointWrites (c : Config) (x y : Int) (e : Entry) : List Host.Cell :=
  if inbounds x y then pairCommit c (offset x y) e else []

/-- The writes of CLEAR (R88): a pair commit at every cell, offsets 0 to 999 in increasing order. -/
def clearWrites (c : Config) (e : Entry) : List Host.Cell :=
  cellsInOrder.flatMap fun p => pairCommit c (offset p.1 p.2) e

/-- The memory after the writes of CLEAR (R88): every `C[off] = zext_8(e)`, every `G[off] = FILLED_GLYPH`, no byte
outside the planes. It is what performing `clearWrites` in order gives, in a form that evaluates fast. -/
def clearMemory (c : Config) (e : Entry) (m : Memory) : Memory :=
  (m.fill c.colorBase cells (e.setWidth 8)).fill c.glyphBase cells c.filledGlyph

/-- The value of a status on the 1-bit `status` line of the response port: `OK` = 0, `ILLEGAL` = 1 (R66). -/
def Status.line : Status → BitVec 1
  | .ok => 0#1
  | .illegal => 1#1

/-- The state after a command: the planes hold `mem`, the byte writes `writes` were issued and the response `r` is
given; nothing else changes (R66, R109). -/
def State.served (s : State) (mem : Memory) (writes : List Host.Cell) (r : Response) : State :=
  { s with mem := mem, writePort := writes, resp := some r }

/-- The state with no command served: no value on the response port, no write issued (R26, R33). -/
def State.quiet (s : State) : State := { s with resp := none, writePort := [] }

/-- The state with `inputs` as what the outside presents from here on. -/
def State.withInputs (s : State) (inputs : List Input) : State := { s with inputs := inputs }

/-- The state with a command put in front of what the outside presents. -/
def State.present (s : State) (c : Command) : State := s.withInputs (.command c :: s.inputs)

/-- The one gate of every step: a configuration that R11 does not admit is refused. -/
def proceed (s t : State) : Host.Outcome State Fault Refusal :=
  if s.config.admitted then .next t else .refused .configurationNotAdmitted

/-- A command completes, in one indivisible step (R43, R112): the planes hold `mem`, the byte writes `writes` were
issued, and the response `(OK, value)` is given (R66). -/
def complete (s : State) (mem : Memory) (writes : List Host.Cell) (value : BitVec 24) :
    Host.Outcome State Fault Refusal :=
  proceed s (s.served mem writes ⟨.ok, value⟩)

/-- A command that reaches no memory completes (R34, R70, R92): only the response is new. -/
def respond (s : State) (value : BitVec 24) : Host.Outcome State Fault Refusal :=
  complete s s.mem [] value

/-- The response to an illegal command, `(ILLEGAL, 0)` (R64, R66, R95). -/
def illegalAnswer : Response := ⟨.illegal, 0⟩

/-- What RDQ does with an illegal command: it answers, writes no memory and is ready for the next (R95). -/
def answerIllegal (s : State) : Host.Outcome State Fault Refusal :=
  proceed s (s.served s.mem [] illegalAnswer)

/-- RDQ idle between commands: the planes keep their contents and nothing is retained (R26, R106; log entry 9). -/
def idle (s : State) : Host.Outcome State Fault Refusal := proceed s s.quiet

/-- A reset between commands: it writes no memory, initialises nothing, changes no parameter, and leaves RDQ idle
with no value on the response port (R33, R107, R108, R109). -/
def resetBetween (s : State) : Host.Outcome State Fault Refusal := proceed s s.quiet

/-- Power-on with a configuration and launch contents, and what the host will present: configuration fixed, then
reset, then commands (R27, R111). -/
def launch (c : Config) (contents : List Host.Cell) (inputs : List Input) : State where
  config := c
  mem := Memory.writeAll [] contents
  resp := none
  writePort := []
  inputs := inputs

/-- The colour byte a read returns (R40): bits 3:0 are the byte's own, bits 7:4 are the byte's own or the draw. -/
def colorRead (h : ColorHiRead) (draw : BitVec 4) (v : Byte) : Byte :=
  match h with
  | .asWritten => v
  | .anyValue => draw ++ v.extractLsb' 0 4

/-- `MemRead(a, 1)` by the observer between commands (R13, R40), `draw` being the free draw of this read. None for a
byte the model has no value of, and for an address outside the planes, of which RDQ says nothing. -/
def memRead (s : State) (draw : BitVec 4) (a : Nat) : Option Byte :=
  if s.config.colorBase ≤ a ∧ a < s.config.colorBase + cells then
    (s.mem.read a).map (colorRead s.config.colorHiRead draw)
  else if s.config.glyphBase ≤ a ∧ a < s.config.glyphBase + cells then s.mem.read a
  else none

/-- `G[off]` of R27. -/
def State.glyph (s : State) (off : Nat) : Option Byte := s.mem.read (s.config.glyphBase + off)

/-- `C[off]` of R27. -/
def State.color (s : State) (off : Nat) : Option Byte := s.mem.read (s.config.colorBase + off)

end Sys2Proof.Machine
end

