-- ==== Sys2Proof/Machine/Display.lean ====
section
/-! DEFINITION. The meanings of the display_write_controller family (spec/41_display_write_controller.md). -/

namespace Sys2Proof.Machine

/-- DIM (R86): `resp <- (OK, 0x001928)`. -/
def execDim (s : State) : Host.Outcome State Fault Refusal :=
  respond s dimensionWord

/-- WRPT (R87): a pair commit at `offset(X, Y)` if the coordinate is in bounds, else a drop; `(OK, 0)` both ways. -/
def execWrpt (x y : Int) (e : Entry) (s : State) : Host.Outcome State Fault Refusal :=
  complete s (s.mem.writeAll (pointWrites s.config x y e)) (pointWrites s.config x y e) 0

/-- CLEAR (R88): a pair commit at every cell; `(OK, 0)`. -/
def execClear (e : Entry) (s : State) : Host.Outcome State Fault Refusal :=
  complete s (clearMemory s.config e s.mem) (clearWrites s.config e) 0

end Sys2Proof.Machine
end

