-- ==== Sys2Proof/Machine/Palette.lean ====
section
/-! DEFINITION. The meanings of the palette_quantizer family (spec/40_palette_quantizer.md): pure functions of their
operands and the constant tables, which read and write no memory (R70). -/

namespace Sys2Proof.Machine

/-- QGRAY (R74): `e <- quant_gray(L)`, `resp <- (OK, zext_24(e))`. -/
def execQgray (l : Byte) (s : State) : Host.Outcome State Fault Refusal :=
  respond s ((s.config.quantGray l).setWidth 24)

/-- Q15 (R75): luma of the expanded channels, then the grayscale band. -/
def execQ15 (r g b : Chan5) (s : State) : Host.Outcome State Fault Refusal :=
  respond s ((s.config.quantGray (s.config.luma15 r g b)).setWidth 24)

/-- Q24 (R76): luma, then the grayscale band. -/
def execQ24 (r g b : Byte) (s : State) : Host.Outcome State Fault Refusal :=
  respond s ((s.config.quantGray (s.config.luma24 r g b)).setWidth 24)

/-- TORGB (R78): `resp <- (OK, {R, G, B})` of `PALETTE_RGB[e]`. -/
def execTorgb (e : Entry) (s : State) : Host.Outcome State Fault Refusal :=
  respond s (s.config.rgbOf e).word

/-- PACK (R80): packing is the entry's ordinal. -/
def execPack (e : Entry) (s : State) : Host.Outcome State Fault Refusal :=
  respond s (e.setWidth 24)

/-- UNPACK (R81): the 4-bit value as the corresponding ordinal. -/
def execUnpack (n : Entry) (s : State) : Host.Outcome State Fault Refusal :=
  respond s (n.setWidth 24)

end Sys2Proof.Machine
end

