-- ==== Sys2Proof/Machine/Dispatch.lean ====
section
/-! DEFINITION. One arm per command, each a direct call of its meaning. -/

namespace Sys2Proof.Machine

def exec (i : Instr) (s : State) : Host.Outcome State Fault Refusal :=
  match i with
  | .qgray l => Sys2Proof.Machine.execQgray l s
  | .q15 r g b => Sys2Proof.Machine.execQ15 r g b s
  | .q24 r g b => Sys2Proof.Machine.execQ24 r g b s
  | .torgb e => Sys2Proof.Machine.execTorgb e s
  | .pack e => Sys2Proof.Machine.execPack e s
  | .unpack n => Sys2Proof.Machine.execUnpack n s
  | .dim => Sys2Proof.Machine.execDim s
  | .wrpt x y e => Sys2Proof.Machine.execWrpt x y e s
  | .clear e => Sys2Proof.Machine.execClear e s

end Sys2Proof.Machine
end

