-- ==== Sys2Proof/Machine/CommandPort.lean ====
section
/-! DEFINITION. What happens to what arrives at RDQ: a command is decoded first and then executed
(spec/60_exceptions.md R96), one at a time in the order presented (spec/70_reset_and_hazards.md R112). -/

namespace Sys2Proof.Machine

/-- RDQ serves one command, as the hardware does: a legal one is executed, an illegal one is answered `(ILLEGAL, 0)`
and changes nothing (R63, R64, R66, R95). Total on every command. -/
def serve (c : Command) (s : State) : Host.Outcome State Fault Refusal :=
  match decode c with
  | .ok i => exec i s
  | .error _ => answerIllegal s

/-- One command in a run of the model: as `serve`, but an illegal command is a refusal, by name and with the answer
RDQ gives, because a run that contains one proves nothing about the commands after it (R95; log entry 11). -/
def runCommand (c : Command) (s : State) : Host.Outcome State Fault Refusal :=
  match decode c with
  | .ok i => exec i s
  | .error why => .refused (.illegalCommand why illegalAnswer)

/-- What one input does (R107, R110, R112, R114). A foreign write is refused at every address: the spec asks it for
the planes (R48, R114), and at the addresses it leaves to the platform (R45) it is a DESIGN CHOICE, safe (log entry
14). -/
def accept (i : Input) (s : State) : Host.Outcome State Fault Refusal :=
  match i with
  | .command c => runCommand c s
  | .reset => resetBetween s
  | .resetDuring _ => .refused .resetDuringCommand
  | .secondHost _ => .refused .secondHost
  | .foreignPlaneWrite _ _ => .refused .foreignPlaneWrite

/-- Take the next input off the port; with none presented RDQ is idle (R106, R115). -/
def takeInput (s : State) : Host.Outcome State Fault Refusal :=
  match s.inputs with
  | [] => idle s
  | i :: rest => accept i (s.withInputs rest)

end Sys2Proof.Machine
end

