-- ==== Sys2Proof/Machine/Step.lean ====
section
/-! DEFINITION. One step of the machine: the next input is taken and its whole effect is done
(spec/70_reset_and_hazards.md R112). RDQ fetches no instruction (spec/10_state.md R21): the next instruction is the
command at the head of the command port. -/

namespace Sys2Proof.Machine

/-- One step: next, fault or refusal. -/
def step (s : State) : Host.Outcome State Fault Refusal := takeInput s

/-- `s` with the command of low bits `w` presented next on the command port (log entry 8). -/
def State.withFetchWord (s : State) (nbits w : Nat) : State := s.present (commandOfTable nbits w)

end Sys2Proof.Machine
end

