-- ==== Sys2Proof/Machine/HostProgram.lean ====
section
/-! DEFINITION. The host's side of the pseudo-instructions (spec/30_encoding.md R68, spec/41_display_write_controller.md
R89): each expands to commands, and the host passes the value of a quantize response into the write point that
follows (spec/00_scope.md R4). RDQ itself has no such command. -/

namespace Sys2Proof.Machine

/-- One thing the host does: issue a command, or issue `WRPT X, Y, v[3:0]` where `v` is the value of the response it
has just read (R68). -/
inductive HostStep where
  | issue (i : Instr)
  | plotResult (x y : Int)
deriving DecidableEq, Repr

/-- A line of assembler: a command, or a pseudo-instruction (R67, R68). -/
inductive SourceLine where
  | command (i : Instr)
  /-- WRMANY (X1,Y1,e1), …, (Xn,Yn,en) -/
  | wrmany (points : List (Int × Int × Entry))
  /-- PLOTG X, Y, L -/
  | plotg (x y : Int) (l : Byte)
  /-- PLOT15 X, Y, R5, G5, B5 -/
  | plot15 (x y : Int) (r g b : Chan5)
  /-- PLOT24 X, Y, R8, G8, B8 -/
  | plot24 (x y : Int) (r g b : Byte)
  | nop
deriving DecidableEq, Repr

/-- The expansion of a line (R68), in the order shown there. -/
def SourceLine.expand : SourceLine → List HostStep
  | .command i => [.issue i]
  | .wrmany points => points.map fun p => .issue (.wrpt p.1 p.2.1 p.2.2)
  | .plotg x y l => [.issue (.qgray l), .plotResult x y]
  | .plot15 x y r g b => [.issue (.q15 r g b), .plotResult x y]
  | .plot24 x y r g b => [.issue (.q24 r g b), .plotResult x y]
  | .nop => [.issue .dim]

/-- The command the host issues, given what stands on the response port. -/
def HostStep.commandFor (h : HostStep) (resp : Option Response) : Option Instr :=
  match h with
  | .issue i => some i
  | .plotResult x y => resp.map fun r => .wrpt x y (r.value.extractLsb' 0 4)

/-- The host carries out its steps one after the other, each command presented and served before the next (R112). -/
def runHost : List HostStep → State → Host.Outcome State Fault Refusal
  | [], s => .next s
  | h :: hs, s =>
    match h.commandFor s.resp with
    | none => .refused .noResponseToPass
    | some i =>
      match step (s.present (encode i)) with
      | .next t => runHost hs t
      | .fault f => .fault f
      | .refused r => .refused r

end Sys2Proof.Machine
end

