-- ==== Sys2Proof/WellFormed.lean ====
section
/-! DEFINITION. Which terms of `Instr` a command word can carry (spec/30_encoding.md R59, R67). Every other operand
is a bit vector of its field's exact width, so the coordinates of WRPT hold the only ranges left to check
(spec/93_implementation_defined.md I1: a nibble is 4 bits and cannot be out of range). -/

namespace Sys2Proof

/-- `v` is a value of `s32`: two's complement, -2^31 to 2^31 - 1 (R12, R59). -/
def inS32 (v : Int) : Bool := decide (-2147483648 ≤ v) && decide (v ≤ 2147483647)

/-- The operands are in their fields' ranges (R67). -/
def Instr.wf : Instr → Bool
  | .wrpt x y _ => inS32 x && inS32 y
  | .qgray _ => true
  | .q15 _ _ _ => true
  | .q24 _ _ _ => true
  | .torgb _ => true
  | .pack _ => true
  | .unpack _ => true
  | .dim => true
  | .clear _ => true

end Sys2Proof
end

