-- ==== Sys2Proof/Machine/Assembler.lean ====
section
/-! DEFINITION. The assembler syntax (spec/30_encoding.md R67, R68): one line of text to a command or a
pseudo-instruction, or nothing where the line is an assembly error. The spec's own notation; what R67 leaves open of
its lexical form is log entry 20. -/

namespace Sys2Proof.Machine

/-- The lexemes of a line: blanks separate, and a comma or a parenthesis stands for itself. `cur` is the lexeme being
read, last character first. -/
def lexemes : List Char → List Char → List (List Char)
  | [], cur => if cur.isEmpty then [] else [cur.reverse]
  | c :: cs, cur =>
    let done := if cur.isEmpty then [] else [cur.reverse]
    if c == ' ' || c == '\t' then done ++ lexemes cs []
    else if c == ',' || c == '(' || c == ')' then done ++ [c] :: lexemes cs []
    else lexemes cs (c :: cur)

/-- The value of a digit in base 10 or 16. -/
def digitValue (base : Nat) (c : Char) : Option Nat :=
  let n := c.toNat
  let v :=
    if 48 ≤ n && n ≤ 57 then n - 48
    else if 97 ≤ n && n ≤ 102 then n - 87
    else if 65 ≤ n && n ≤ 70 then n - 55
    else base
  if v < base then some v else none

/-- The value of a string of digits, most significant first, read on from `acc`. -/
def digitsValue (base : Nat) : List Char → Nat → Option Nat
  | [], acc => some acc
  | c :: cs, acc =>
    match digitValue base c with
    | some d => digitsValue base cs (acc * base + d)
    | none => none

/-- At least one digit. -/
def natural (base : Nat) (cs : List Char) : Option Nat :=
  if cs.isEmpty then none else digitsValue base cs 0

/-- A number: decimal, `0x` hex, or a negative decimal (R67). -/
def number : List Char → Option Int
  | '0' :: 'x' :: cs => (natural 16 cs).map Int.ofNat
  | '-' :: cs => (natural 10 cs).map fun n => -Int.ofNat n
  | cs => (natural 10 cs).map Int.ofNat

/-- The names of the default name table (R29). -/
def entryNames : List (List Char × EntryName) :=
  [("Black".toList, .black), ("White".toList, .white), ("Red".toList, .red), ("Cyan".toList, .cyan),
   ("Purple".toList, .purple), ("Green".toList, .green), ("Blue".toList, .blue), ("Yellow".toList, .yellow),
   ("Orange".toList, .orange), ("Brown".toList, .brown), ("LightRed".toList, .lightRed),
   ("DarkGray".toList, .darkGray), ("Gray".toList, .gray), ("LightGreen".toList, .lightGreen),
   ("LightBlue".toList, .lightBlue), ("LightGray".toList, .lightGray)]

/-- A number in [0, 2^w), as an unsigned field of `w` bits; out of range is an assembly error (R67). -/
def unsignedOperand (w : Nat) (cs : List Char) : Option (BitVec w) :=
  match number cs with
  | some n => if 0 ≤ n ∧ n < 2 ^ w then some (BitVec.ofInt w n) else none
  | none => none

/-- An entry, as its ordinal or as a name (R67). -/
def entryOperand (cs : List Char) : Option Entry :=
  match entryNames.lookup cs with
  | some name => some name.ordinal
  | none => unsignedOperand 4 cs

/-- A coordinate; outside `s32` is an assembly error (R67). -/
def coordOperand (cs : List Char) : Option Int :=
  match number cs with
  | some n => if inS32 n then some n else none
  | none => none

/-- Operands separated by single commas: `a`, `a , b`, … -/
def commaSeparated : List (List Char) → Option (List (List Char))
  | [] => some []
  | [a] => some [a]
  | a :: comma :: rest =>
    if comma = [','] ∧ rest ≠ [] then (commaSeparated rest).map (a :: ·) else none

/-- The groups of lexemes that closing parentheses end, each without its closing parenthesis. `cur` is the group
being read, last lexeme first. -/
def pointGroups : List (List Char) → List (List Char) → Option (List (List (List Char)))
  | [], cur => if cur.isEmpty then some [] else none
  | a :: rest, cur =>
    if a = [')'] then (pointGroups rest []).map (cur.reverse :: ·) else pointGroups rest (a :: cur)

/-- One point of WRMANY, `(X,Y,e` up to its closing parenthesis (R68). -/
def pointOperand : List (List Char) → Option (Int × Int × Entry)
  | [l, x, c1, y, c2, e] =>
    if l = ['('] ∧ c1 = [','] ∧ c2 = [','] then
      (coordOperand x).bind fun x => (coordOperand y).bind fun y => (entryOperand e).map fun e => (x, y, e)
    else none
  | _ => none

/-- The points after the first, each behind a comma. -/
def morePoints : List (List (List Char)) → Option (List (Int × Int × Entry))
  | [] => some []
  | (comma :: g) :: gs =>
    if comma = [','] then (pointOperand g).bind fun p => (morePoints gs).map (p :: ·) else none
  | [] :: _ => none

/-- The points of WRMANY: `(X,Y,e)`, separated by commas; none at all is the empty sequence (R68). -/
def pointOperands (ls : List (List Char)) : Option (List (Int × Int × Entry)) :=
  match pointGroups ls [] with
  | none => none
  | some [] => some []
  | some (g :: gs) => (pointOperand g).bind fun p => (morePoints gs).map (p :: ·)

/-- `f` of three operands, each read by its own reader. -/
def read3 {α β γ δ : Type} (a : Option α) (b : Option β) (c : Option γ) (f : α → β → γ → δ) : Option δ :=
  a.bind fun a => b.bind fun b => c.map fun c => f a b c

/-- The mnemonics without operands (R67, R68). -/
def line0 (mnemonic : List Char) : Option SourceLine :=
  if mnemonic = "DIM".toList then some (.command .dim)
  else if mnemonic = "NOP".toList then some .nop
  else none

/-- The mnemonics with one operand (R67). -/
def line1 (mnemonic a : List Char) : Option SourceLine :=
  if mnemonic = "QGRAY".toList then (unsignedOperand 8 a).map fun l => .command (.qgray l)
  else if mnemonic = "TORGB".toList then (entryOperand a).map fun e => .command (.torgb e)
  else if mnemonic = "PACK".toList then (entryOperand a).map fun e => .command (.pack e)
  else if mnemonic = "UNPACK".toList then (unsignedOperand 4 a).map fun n => .command (.unpack n)
  else if mnemonic = "CLEAR".toList then (entryOperand a).map fun e => .command (.clear e)
  else none

/-- The mnemonics with three operands (R67, R68). -/
def line3 (mnemonic a b c : List Char) : Option SourceLine :=
  if mnemonic = "Q15".toList then
    read3 (unsignedOperand 5 a) (unsignedOperand 5 b) (unsignedOperand 5 c) fun r g b => .command (.q15 r g b)
  else if mnemonic = "Q24".toList then
    read3 (unsignedOperand 8 a) (unsignedOperand 8 b) (unsignedOperand 8 c) fun r g b => .command (.q24 r g b)
  else if mnemonic = "WRPT".toList then
    read3 (coordOperand a) (coordOperand b) (entryOperand c) fun x y e => .command (.wrpt x y e)
  else if mnemonic = "PLOTG".toList then
    read3 (coordOperand a) (coordOperand b) (unsignedOperand 8 c) fun x y l => .plotg x y l
  else none

/-- The mnemonics with five operands (R68). -/
def line5 (mnemonic a b c d e : List Char) : Option SourceLine :=
  (coordOperand a).bind fun x => (coordOperand b).bind fun y =>
    if mnemonic = "PLOT15".toList then
      read3 (unsignedOperand 5 c) (unsignedOperand 5 d) (unsignedOperand 5 e) fun r g b => .plot15 x y r g b
    else if mnemonic = "PLOT24".toList then
      read3 (unsignedOperand 8 c) (unsignedOperand 8 d) (unsignedOperand 8 e) fun r g b => .plot24 x y r g b
    else none

/-- The line of a mnemonic with its operands (R67, R68). -/
def lineOf (mnemonic : List Char) : List (List Char) → Option SourceLine
  | [] => line0 mnemonic
  | [a] => line1 mnemonic a
  | [a, b, c] => line3 mnemonic a b c
  | [a, b, c, d, e] => line5 mnemonic a b c d e
  | _ => none

/-- One line of assembler; none is an assembly error, not a command (R67). -/
def assemble (line : String) : Option SourceLine :=
  match lexemes line.toList [] with
  | [] => none
  | mnemonic :: rest =>
    if mnemonic = "WRMANY".toList then (pointOperands rest).map .wrmany
    else
      match commaSeparated rest with
      | some ops => lineOf mnemonic ops
      | none => none

end Sys2Proof.Machine
end

