-- ==== Sys2Proof/Safety.lean ====
section
/-! DEFINITION. What statements about RDQ's runs are made of: the planes' addresses, the invariants of a good state,
the abstract history of pair commits (spec/41_display_write_controller.md R90, R91), and a program of commands as the
host presents it. The numbers of R35, R36, R83 and R84 are written out here, so that a statement does not rest on the
model's own bounds check and offset. -/

namespace Sys2Proof.Machine

/-- `a` is the address of a colour-plane byte: in `[COLOR_BASE, COLOR_BASE + 999]` (R36). -/
abbrev inColorPlane (c : Config) (a : Nat) : Prop := c.colorBase ≤ a ∧ a ≤ c.colorBase + 999

/-- `a` is the address of a glyph-plane byte: in `[GLYPH_BASE, GLYPH_BASE + 999]` (R35). -/
abbrev inGlyphPlane (c : Config) (a : Nat) : Prop := c.glyphBase ≤ a ∧ a ≤ c.glyphBase + 999

/-- `(a, v)` is a byte write RDQ may issue: an ordinal into the colour plane, or the filled-block glyph into the
glyph plane (R37, R38, R39). -/
abbrev planeWrite (c : Config) (p : Host.Cell) : Prop :=
  (inColorPlane c p.1 ∧ p.2.toNat ≤ 15) ∨ (inGlyphPlane c p.1 ∧ p.2 = c.filledGlyph)

/-- The state after a command that answers `(OK, v)` and reaches no memory: the response and the (empty) write port
are new, everything else is as it was. -/
def State.answering (s : State) (v : BitVec 24) : State :=
  { s with resp := some ⟨.ok, v⟩, writePort := [] }

/-- `e` is the entry of the grayscale band of `l`, by the band list of R71. -/
def bandEntry (c : Config) (l : Byte) (e : Entry) : Prop :=
  (l.toNat ≤ 31 → e = c.grayEntry[0]) ∧
  (32 ≤ l.toNat → l.toNat ≤ 63 → e = c.grayEntry[1]) ∧
  (64 ≤ l.toNat → l.toNat ≤ 95 → e = c.grayEntry[2]) ∧
  (96 ≤ l.toNat → l.toNat ≤ 127 → e = c.grayEntry[3]) ∧
  (128 ≤ l.toNat → e = c.grayEntry[4])

/-- What holds of every good state: the memory is in its one form and inside the address space (R34), the last step
issued only writes RDQ may issue, 0, 2 or 2000 of them (R92), and no response of a run is ILLEGAL (R95). -/
structure State.Good (s : State) : Prop where
  memory_form : s.mem.wf
  memory_in_space : ∀ p ∈ s.mem, p.1 < 2 ^ s.config.addrW
  writes_in_planes : ∀ p ∈ s.writePort, planeWrite s.config p
  write_count : s.writePort.length = 0 ∨ s.writePort.length = 2 ∨ s.writePort.length = 2000
  response_ok : ∀ r, s.resp = some r → r.status = .ok

/-- The pairing of the planes (R43, R91), for a run whose launch listed no plane byte: at every offset either neither
byte is listed, or the glyph byte is `FILLED_GLYPH` and the colour byte is an ordinal. -/
def State.Paired (s : State) : Prop :=
  ∀ off, off ≤ 999 →
    (s.glyph off = none ∧ s.color off = none) ∨
    (s.glyph off = some s.config.filledGlyph ∧ ∃ e : Entry, s.color off = some (e.setWidth 8))

/-- The entry of the pair commit that a command makes at `off`, if it makes one (R83, R84, R87, R88). -/
def commitAt (i : Instr) (off : Nat) : Option Entry :=
  match i with
  | .wrpt x y e => if 0 ≤ x ∧ x < 40 ∧ 0 ≤ y ∧ y < 25 ∧ x + 40 * y = (off : Int) then some e else none
  | .clear e => if off ≤ 999 then some e else none
  | .qgray _ => none
  | .q15 _ _ _ => none
  | .q24 _ _ _ => none
  | .torgb _ => none
  | .pack _ => none
  | .unpack _ => none
  | .dim => none

/-- The entry of the last pair commit at `off` in a sequence of commands, if there was one (R90). -/
def lastCommit : List Instr → Nat → Option Entry
  | [], _ => none
  | i :: is, off => (lastCommit is off).or (commitAt i off)

/-- The commands of a program, as the host presents them (R52, R69). -/
def presented (is : List Instr) : List Input := is.map fun i => .command (encode i)

/-- `k` steps of the machine, each a next state; nothing where one stops. -/
def steps : Nat → State → Option State
  | 0, s => some s
  | k + 1, s =>
    match step s with
    | .next t => steps k t
    | .fault _ => none
    | .refused _ => none

end Sys2Proof.Machine
end

