-- ==== Sys2Proof/Certificates/Slice0/Obligations.lean ====
section
/-! DEFINITION. The statements for the provers. In each, a hypothesis `s.config.admitted = true` is the condition of
spec/00_scope.md R11 for a configuration to be run at all, and a statement for every state is a statement for every
value of every OPEN parameter of R10. -/

open Sys2Proof Sys2Proof.Machine

/-! ### The palette quantizer -/

/-- R71, the band function itself: the entry of each band, and the derived form `min(L[7:5], 4)`. -/
def Obligations.GrayBandsFollowTheBandList : Prop :=
  ∀ (c : Config) (l : Byte),
    bandEntry c l (c.quantGray l) ∧ (band l).val = min (l.extractLsb' 5 3).toNat 4

/-- R74 (with the encoding of R55): QGRAY of every luma runs, answers the entry of its band, and changes nothing
else. -/
def Obligations.QgrayAnswersTheEntryOfItsBand : Prop :=
  (∀ (c : Command) (l : Byte), decode c = .ok (.qgray l) ↔ c.w0 = 0#16 ++ l ++ 0#4 ++ 0x1#4) ∧
  ∀ (s : State) (l : Byte), s.config.admitted = true →
    ∃ e : Entry, bandEntry s.config l e ∧ exec (.qgray l) s = .next (s.answering (e.setWidth 24))

/-- R75 (with R56, R73): Q15 expands each channel, takes the luma, and answers the entry of its band; it changes
nothing else. -/
def Obligations.Q15AnswersTheEntryOfItsLumaBand : Prop :=
  (∀ (c : Command) (r g b : Chan5), decode c = .ok (.q15 r g b) ↔ c.w0 = 0#9 ++ r ++ g ++ b ++ 0#4 ++ 0x2#4) ∧
  ∀ (s : State) (r g b : Chan5), s.config.admitted = true →
    ∃ e : Entry,
      bandEntry s.config
        (s.config.luma24 s.config.expandRows[r.toFin] s.config.expandRows[g.toFin] s.config.expandRows[b.toFin]) e ∧
      exec (.q15 r g b) s = .next (s.answering (e.setWidth 24))

/-- R76 (with R57): Q24 takes the luma and answers the entry of its band; it changes nothing else. -/
def Obligations.Q24AnswersTheEntryOfItsLumaBand : Prop :=
  (∀ (c : Command) (r g b : Byte), decode c = .ok (.q24 r g b) ↔ c.w0 = r ++ g ++ b ++ 0#4 ++ 0x3#4) ∧
  ∀ (s : State) (r g b : Byte), s.config.admitted = true →
    ∃ e : Entry, bandEntry s.config (s.config.luma24 r g b) e ∧
      exec (.q24 r g b) s = .next (s.answering (e.setWidth 24))

/-- R77: a colour converts as its own luma does, for every value of the parameters, so two colours of equal luma
convert alike. -/
def Obligations.ColoursDegradeToTheirLuma : Prop :=
  (∀ (s : State) (r g b : Chan5), exec (.q15 r g b) s = exec (.qgray (s.config.luma15 r g b)) s) ∧
  (∀ (s : State) (r g b : Byte), exec (.q24 r g b) s = exec (.qgray (s.config.luma24 r g b)) s) ∧
  (∀ (s : State) (r g b : Chan5) (r' g' b' : Byte), s.config.luma15 r g b = s.config.luma24 r' g' b' →
    exec (.q15 r g b) s = exec (.q24 r' g' b') s)

/-- R10, R72, R73: `LUMA24` and `EXPAND5` are fully open: every total function is the function of some configuration,
the other parameters being as they were, and this does not touch its admission. -/
def Obligations.EveryLumaAndExpansionIsAConfiguration : Prop :=
  (∀ (c : Config) (f : Byte → Byte → Byte → Byte), ∃ rows : List (Rgb × Byte),
    ({ c with lumaRows := rows }.admitted = c.admitted) ∧
    ∀ r g b, { c with lumaRows := rows }.luma24 r g b = f r g b) ∧
  (∀ (c : Config) (f : Chan5 → Byte), ∃ rows : Vector Byte 32,
    ({ c with expandRows := rows }.admitted = c.admitted) ∧
    ∀ v, { c with expandRows := rows }.expand5 v = f v)

/-- R72, R73, about the DEFAULT formulas only (log entries 4 and 5): a gray has its own value as luma, no default luma
sum exceeds 255 before it is stored, and the ends of the default expansion. -/
def Obligations.DefaultLumaOfAGrayIsItself : Prop :=
  (∀ v : Byte, luma24Default ⟨v, v, v⟩ = v) ∧
  (∀ r g b : Byte, (77 * r.toNat + 150 * g.toNat + 29 * b.toNat + 128) / 256 ≤ 255) ∧
  Config.default.expand5 0 = 0 ∧ Config.default.expand5 31 = 255

/-- R78 (with R58, R66): TORGB of every entry runs, answers its row of `PALETTE_RGB` with R in bits 23:16, G in 15:8
and B in 7:0, and changes nothing else. Where the table has pairwise distinct rows, the 16 answers are pairwise
distinct, and where its row 6 is (0, 0, 170), TORGB 6 answers 0x0000AA: R30 and R10 constrain the table so. -/
def Obligations.TorgbAnswersTheRowOfTheEntry : Prop :=
  (∀ (c : Command) (e : Entry), decode c = .ok (.torgb e) ↔ c.w0 = 0#24 ++ e ++ 0x4#4) ∧
  (∀ (s : State) (e : Entry), s.config.admitted = true →
    ∃ v : BitVec 24, exec (.torgb e) s = .next (s.answering v) ∧
      v.extractLsb' 16 8 = s.config.paletteRgb[e.toFin].r ∧
      v.extractLsb' 8 8 = s.config.paletteRgb[e.toFin].g ∧
      v.extractLsb' 0 8 = s.config.paletteRgb[e.toFin].b) ∧
  (∀ (s t u : State) (e f : Entry),
    (∀ i j : Fin 16, s.config.paletteRgb[i] = s.config.paletteRgb[j] → i = j) →
    exec (.torgb e) s = .next t → exec (.torgb f) s = .next u → t.resp = u.resp → e = f) ∧
  ∀ s : State, s.config.admitted = true → s.config.paletteRgb[6] = ⟨0, 0, 170⟩ →
    exec (.torgb 6) s = .next (s.answering 0x0000AA)

/-- R80 (with R58): PACK of every entry runs, answers the entry's ordinal, and changes nothing else. -/
def Obligations.PackAnswersTheOrdinal : Prop :=
  (∀ (c : Command) (e : Entry), decode c = .ok (.pack e) ↔ c.w0 = 0#24 ++ e ++ 0x5#4) ∧
  ∀ (s : State) (e : Entry), s.config.admitted = true → exec (.pack e) s = .next (s.answering (e.setWidth 24))

/-- R81 (with R58): UNPACK of every nibble runs, answers the ordinal, and changes nothing else. -/
def Obligations.UnpackAnswersTheOrdinal : Prop :=
  (∀ (c : Command) (n : Entry), decode c = .ok (.unpack n) ↔ c.w0 = 0#24 ++ n ++ 0x6#4) ∧
  ∀ (s : State) (n : Entry), s.config.admitted = true → exec (.unpack n) s = .next (s.answering (n.setWidth 24))

/-- R82: unpacking what PACK answered, and packing what UNPACK answered, answers the ordinal the first command was
given. -/
def Obligations.PackAndUnpackRoundTrip : Prop :=
  (∀ (s : State) (e : Entry), s.config.admitted = true →
    ∃ t v, exec (.pack e) s = .next t ∧ t.resp = some ⟨.ok, v⟩ ∧
      exec (.unpack (v.extractLsb' 0 4)) t = .next (t.answering (e.setWidth 24))) ∧
  (∀ (s : State) (n : Entry), s.config.admitted = true →
    ∃ t v, exec (.unpack n) s = .next t ∧ t.resp = some ⟨.ok, v⟩ ∧
      exec (.pack (v.extractLsb' 0 4)) t = .next (t.answering (n.setWidth 24)))

/-! ### The display write controller -/

/-- R86 (with R60): DIM decodes from `W0 = 0x00000007` exactly, runs in every state, answers 0x001928, and changes
nothing else. -/
def Obligations.DimAnswersFortyByTwentyFive : Prop :=
  (∀ c : Command, decode c = .ok .dim ↔ c.w0 = 0x00000007) ∧
  ∀ s : State, s.config.admitted = true → exec .dim s = .next (s.answering 0x001928)

/-- R83: the bounds check compares the mathematical values of the signed coordinates. -/
def Obligations.BoundsCheckIsSigned : Prop :=
  ∀ x y : BitVec 32, inbounds x.toInt y.toInt = true ↔
    ((0#32).sle x = true ∧ x.slt 40#32 = true ∧ (0#32).sle y = true ∧ y.slt 25#32 = true)

/-- R84: on in-bounds cells the offset is `X + Y*40`, lies in [0, 999], and is in one-to-one correspondence with the
cells. -/
def Obligations.OffsetsNumberTheCells : Prop :=
  (∀ x y : Int, inbounds x y = true → (offset x y : Int) = x + y * 40 ∧ offset x y ≤ 999) ∧
  ∀ off : Nat, off ≤ 999 → ∃ x y : Int, (inbounds x y = true ∧ offset x y = off) ∧
    ∀ x' y' : Int, inbounds x' y' = true ∧ offset x' y' = off → x' = x ∧ y' = y

/-- R87 (with R43, R59, R85): a WRPT word carries the two's-complement coordinates. A write point in bounds runs, answers
`(OK, 0)`, issues the colour byte and then the glyph byte at the cell's offset `X + Y*40`, changes those two bytes and no
other, and changes nothing else. Out of bounds, whatever the coordinates, it runs too, answers `(OK, 0)` all the same,
writes no byte, and changes nothing else. -/
def Obligations.WrptCommitsOrDropsItsPoint : Prop :=
  (∀ (c : Command) (x y : Int) (e : Entry), decode c = .ok (.wrpt x y e) ↔
    c.w0 = 0#24 ++ e ++ 0x8#4 ∧
      x = (c.w1.toNat : Int) - (if c.w1.msb then 2 ^ 32 else 0) ∧
      y = (c.w2.toNat : Int) - (if c.w2.msb then 2 ^ 32 else 0)) ∧
  (∀ (s : State) (x y : Int) (e : Entry), s.config.admitted = true → s.mem.wf →
    0 ≤ x → x < 40 → 0 ≤ y → y < 25 →
    ∃ t, exec (.wrpt x y e) s = .next t ∧ (offset x y : Int) = x + y * 40 ∧
      t.resp = some ⟨.ok, 0⟩ ∧ t.config = s.config ∧ t.inputs = s.inputs ∧
      t.writePort = [(s.config.colorBase + offset x y, e.setWidth 8),
        (s.config.glyphBase + offset x y, s.config.filledGlyph)] ∧
      t.mem.read (s.config.colorBase + offset x y) = some (e.setWidth 8) ∧
      t.mem.read (s.config.glyphBase + offset x y) = some s.config.filledGlyph ∧
      ∀ a, a ≠ s.config.colorBase + offset x y → a ≠ s.config.glyphBase + offset x y →
        t.mem.read a = s.mem.read a) ∧
  ∀ (s : State) (x y : Int) (e : Entry), s.config.admitted = true →
    (x < 0 ∨ 40 ≤ x ∨ y < 0 ∨ 25 ≤ y) → exec (.wrpt x y e) s = .next (s.answering 0)

/-- R88 (with R58): CLEAR runs, answers `(OK, 0)`, issues the pair commits of offsets 0 to 999 in increasing order, leaves every
colour byte the entry and every glyph byte the filled-block code, and changes no other byte and nothing else. -/
def Obligations.ClearFillsBothPlanes : Prop :=
  (∀ (c : Command) (e : Entry), decode c = .ok (.clear e) ↔ c.w0 = 0#24 ++ e ++ 0x9#4) ∧
  ∀ (s : State) (e : Entry), s.config.admitted = true →
    ∃ t, exec (.clear e) s = .next t ∧
      t.resp = some ⟨.ok, 0⟩ ∧ t.config = s.config ∧ t.inputs = s.inputs ∧
      t.writePort = (List.range 1000).flatMap (fun off =>
        [(s.config.colorBase + off, e.setWidth 8), (s.config.glyphBase + off, s.config.filledGlyph)]) ∧
      (∀ off, off ≤ 999 → t.color off = some (e.setWidth 8) ∧ t.glyph off = some s.config.filledGlyph) ∧
      ∀ a, ¬inColorPlane s.config a → ¬inGlyphPlane s.config a → t.mem.read a = s.mem.read a

/-- R88, R85: the memory after CLEAR is, byte for byte and as data, what performing its 1000 pair commits in offset order
gives. -/
def Obligations.ClearIsAThousandPairCommits : Prop :=
  ∀ (s t : State) (e : Entry), s.mem.wf → exec (.clear e) s = .next t →
    t.writePort = (List.range 1000).flatMap (fun off => pairCommit s.config off e) ∧
    t.mem = s.mem.writeAll t.writePort

/-- R88, D17: CLEAR leaves both planes as the 1000 write points of its entry do, presented one after the other. -/
def Obligations.ClearEqualsAThousandWritePoints : Prop :=
  ∀ (s t : State) (e : Entry), s.mem.wf → exec (.clear e) s = .next t →
    ∃ u, steps 1000
        (s.withInputs (presented (cellsInOrder.map fun p => .wrpt (p.1 : Int) (p.2 : Int) e))) = some u ∧
      u.mem = t.mem

/-! ### Whole-machine rules -/

/-- R92, R116: a WRPT issues exactly two byte writes or none, a CLEAR exactly 2000, reaching every byte of both planes,
every other command none; the bytes at all other addresses stay; and no command reads memory: what it answers and
writes depends on its operands and the configuration alone. -/
def Obligations.WriteFootprintOfEveryCommand : Prop :=
  (∀ (i : Instr) (s t : State), s.mem.wf → exec i s = .next t →
    (match i with
      | .wrpt _ _ _ => t.writePort.length = 2 ∨ t.writePort = []
      | .clear _ => t.writePort.length = 2000 ∧
          ∀ a, inColorPlane s.config a ∨ inGlyphPlane s.config a → ∃ v, (a, v) ∈ t.writePort
      | _ => t.writePort = []) ∧
    ∀ a, (∀ p ∈ t.writePort, p.1 ≠ a) → t.mem.read a = s.mem.read a) ∧
  (∀ (i : Instr) (s t s' t' : State), s.config = s'.config → exec i s = .next t → exec i s' = .next t' →
    t.resp = t'.resp ∧ t.writePort = t'.writePort)

/-- R39 (with R37, R38): RDQ never reads memory: what a step answers and writes does not depend on it; a step never
writes a byte outside the two planes, and every write it issues is an ordinal into the colour plane or the filled-block
code into the glyph plane. -/
def Obligations.StepNeverReadsAndWritesOnlyThePlanes : Prop :=
  (∀ s s' t t' : State, s.config = s'.config → s.inputs = s'.inputs → step s = .next t → step s' = .next t' →
    t.resp = t'.resp ∧ t.writePort = t'.writePort) ∧
  ∀ s t : State, s.mem.wf → step s = .next t →
    (∀ p ∈ t.writePort, planeWrite s.config p) ∧
    ∀ a, ¬inColorPlane s.config a → ¬inGlyphPlane s.config a → t.mem.read a = s.mem.read a

/-- R109: no step changes a constant table, the glyph code, a base or any other parameter. -/
def Obligations.StepNeverChangesTheConfiguration : Prop :=
  ∀ s t : State, step s = .next t → t.config = s.config

/-- R44: a write changes only the byte written, and writing it twice leaves what writing it once does; running a command a second time leaves the memory as running it once did; the second run always completes. -/
def Obligations.EveryCommandIsIdempotentOnThePlanes : Prop :=
  (∀ (m : Memory) (a : Nat) (v : Byte), m.wf →
    (m.write a v).read a = some v ∧ (∀ b, b ≠ a → (m.write a v).read b = m.read b) ∧
    (m.write a v).write a v = m.write a v) ∧
  ∀ (i : Instr) (s t : State), s.mem.wf → exec i s = .next t → ∃ u, exec i t = .next u ∧ u.mem = t.mem

/-- R94, R96: in an admitted configuration every command, whatever its operands, completes with status OK; it leaves
the configuration and what the host presents next alone. -/
def Obligations.EveryCommandCompletesWithOk : Prop :=
  ∀ (i : Instr) (s : State), s.config.admitted = true →
    ∃ t v, exec i s = .next t ∧ t.resp = some ⟨.ok, v⟩ ∧ t.config = s.config ∧ t.inputs = s.inputs

/-- R112: when the command at the head of the port decodes to an instruction, the step is that instruction's meaning
at the state from which the command has been taken off the port; and what `withFetchWord` puts on the port is what
the next step decodes. -/
def Obligations.StepRunsTheDecodedCommand : Prop :=
  (∀ (s : State) (c : Command) (i : Instr) (rest : List Input),
    s.inputs = .command c :: rest → decode c = .ok i → step s = exec i { s with inputs := rest }) ∧
  (∀ (s : State) (w : Nat) (i : Instr), w < 4294967296 →
    decode (BitVec.ofNat 96 w) = .ok i → step (s.withFetchWord 32 w) = exec i s)

/-- R64, R95: an illegal command is answered `(ILLEGAL, 0)` by RDQ with no other change, and in a run of the model it is
a refusal that carries this answer. -/
def Obligations.IllegalCommandIsAnsweredAndRefused : Prop :=
  ∀ (s : State) (c : Command) (why : DecodeError) (rest : List Input),
    s.config.admitted = true → s.inputs = .command c :: rest → decode c = .error why →
    serve c { s with inputs := rest } =
      .next { s with inputs := rest, resp := some ⟨.illegal, 0⟩, writePort := [] } ∧
    step s = .refused (.illegalCommand why ⟨.illegal, 0⟩)

/-- R66: RDQ gives every command, legal or illegal, exactly one response: OK, 0 on the status line, with the values
of the table, or `(ILLEGAL, 0)`, 1 on the status line. -/
def Obligations.EveryCommandGetsItsResponse : Prop :=
  ∀ (c : Command) (s : State), s.config.admitted = true →
    ∃ t r, serve c s = .next t ∧ t.resp = some r ∧
      match decode c with
      | .error _ => r = ⟨.illegal, 0⟩ ∧ r.status.line = 1#1
      | .ok i => r.status = .ok ∧ r.status.line = 0#1 ∧
        match i with
        | .qgray l => ∃ e, bandEntry s.config l e ∧ r.value = e.setWidth 24
        | .q15 r5 g5 b5 => ∃ e, bandEntry s.config (s.config.luma15 r5 g5 b5) e ∧ r.value = e.setWidth 24
        | .q24 r8 g8 b8 => ∃ e, bandEntry s.config (s.config.luma24 r8 g8 b8) e ∧ r.value = e.setWidth 24
        | .torgb e => r.value = s.config.paletteRgb[e.toFin].r ++ s.config.paletteRgb[e.toFin].g ++
            s.config.paletteRgb[e.toFin].b
        | .pack e => r.value.toNat = e.toNat
        | .unpack n => r.value.toNat = n.toNat
        | .dim => r.value.toNat = 40 + 25 * 256
        | .wrpt _ _ _ => r.value = 0
        | .clear _ => r.value = 0

/-- R11: no instruction runs and no step is taken in a configuration that is not admitted. -/
def Obligations.UnadmittedConfigurationIsRefused : Prop :=
  ∀ s : State, s.config.admitted = false →
    (∀ i : Instr, exec i s = .refused .configurationNotAdmitted) ∧ ∀ t, step s ≠ .next t

/-- R11, R30: the admission check holds of exactly the configurations whose planes lie in the address space and are
disjoint and whose palette has distinct rows with (0, 0, 170) in row 6. That the check includes R30's two constraints,
and row 6 as Blue's, is log entry 2. -/
def Obligations.AdmissionIsParameterValidity : Prop :=
  ∀ c : Config, c.admitted = true ↔
    c.glyphBase + 1000 - 1 < 2 ^ c.addrW ∧ c.colorBase + 1000 - 1 < 2 ^ c.addrW ∧
    (∀ a, ¬(inColorPlane c a ∧ inGlyphPlane c a)) ∧
    (∀ e f : Fin 16, c.paletteRgb[e] = c.paletteRgb[f] → e = f) ∧
    c.paletteRgb[6] = ⟨0, 0, 170⟩

/-! ### Reset, inputs and observation -/

/-- R33, R107, R108: right after reset no response stands on the port, no byte of the planes is assumed, nothing is
pending, and RDQ serves whatever command is presented first. -/
def Obligations.ResetAssumesNothingAndAcceptsACommand : Prop :=
  State.reset.resp = none ∧ (∀ off, State.reset.glyph off = none ∧ State.reset.color off = none) ∧
  State.reset.writePort = [] ∧ State.reset.inputs = [] ∧
  ∀ i : Instr, ∃ t, exec i State.reset = .next t

/-- R107, R109: a reset between commands writes no memory, changes no parameter, and leaves no response standing. -/
def Obligations.ResetBetweenCommandsKeepsThePlanes : Prop :=
  ∀ (s : State) (rest : List Input), s.config.admitted = true → s.inputs = .reset :: rest →
    step s = .next { s with inputs := rest, resp := none, writePort := [] }

/-- R110, R114: a reset during a command, a command of a second host, and a write to a plane by another agent are
refused, each by its name. That a foreign write at an address outside the planes is refused too is the model's
choice (log entry 14). -/
def Obligations.RunsOutsideTheModelAreRefused : Prop :=
  ∀ (s : State) (rest : List Input) (c : Command) (a : Nat) (v : Byte),
    (s.inputs = .resetDuring c :: rest → step s = .refused .resetDuringCommand) ∧
    (s.inputs = .secondHost c :: rest → step s = .refused .secondHost) ∧
    (s.inputs = .foreignPlaneWrite a v :: rest → step s = .refused .foreignPlaneWrite)

/-- R106, R26: with nothing presented RDQ is idle: the planes and the configuration keep their contents. That the
response port then shows no value is the model's choice (log entry 9). -/
def Obligations.IdleKeepsThePlanes : Prop :=
  ∀ s : State, s.config.admitted = true → s.inputs = [] →
    step s = .next { s with resp := none, writePort := [] }

/-- R27, R111: a launch fixes the configuration and takes any bytes as launch contents: each address reads as the last
byte the launch lists for it, and an address it does not list has no value (log entry 7). -/
def Obligations.LaunchContentsAreAnyBytes : Prop :=
  ∀ (c : Config) (contents : List Host.Cell) (inputs : List Input),
    (launch c contents inputs).config = c ∧ (launch c contents inputs).inputs = inputs ∧
    (launch c contents inputs).mem.wf ∧
    ∀ a, (launch c contents inputs).mem.read a = (contents.reverse.find? fun p => p.1 == a).map Prod.snd

/-- R40: the observer reads `G[off]` and `C[off]`; of a colour byte, bits 3:0 always, and bits 7:4 as written under
`asWritten` and as the read's free draw under `anyValue`. -/
def Obligations.ObserverReadsThePlanes : Prop :=
  ∀ (s : State) (draw : BitVec 4) (off : Nat), s.config.admitted = true → off ≤ 999 →
    memRead s draw (s.config.glyphBase + off) = s.glyph off ∧
    (s.color off = none → memRead s draw (s.config.colorBase + off) = none) ∧
    ∀ v, s.color off = some v →
      ∃ w, memRead s draw (s.config.colorBase + off) = some w ∧ w.extractLsb' 0 4 = v.extractLsb' 0 4 ∧
        (s.config.colorHiRead = .asWritten → w = v) ∧
        (s.config.colorHiRead = .anyValue → w.extractLsb' 4 4 = draw)

/-! ### Invariants -/

/-- The good states include reset. -/
def Obligations.GoodHoldsAtReset : Prop := State.reset.Good

/-- R34, R39, R92, R95: every step from a good state to a next state gives a good state: the memory keeps its one form
and stays inside the address space, the writes issued are RDQ's, 0, 2 or 2000 of them, and no response is ILLEGAL. -/
def Obligations.EveryStepKeepsGood : Prop :=
  ∀ s t : State, s.Good → step s = .next t → t.Good

/-- The planes are paired at reset: no byte of either has been written. -/
def Obligations.PairedHoldsAtReset : Prop := State.reset.Paired

/-- R43, R91: every step keeps the planes paired: at no offset is one byte of a pair there without the other. -/
def Obligations.EveryStepKeepsPaired : Prop :=
  ∀ s t : State, s.mem.wf → s.Paired → step s = .next t → t.Paired

/-! ### Runs -/

/-- R90, R47, R112, R115: a program of n well-formed commands, presented by the host, runs to its end in n steps, and
then both bytes of every cell are those of the last pair commit there, or what stood there before if there was
none. -/
def Obligations.LastWriteWins : Prop :=
  ∀ (s : State) (is : List Instr), s.config.admitted = true → s.mem.wf → (∀ i ∈ is, i.wf = true) →
    s.inputs = presented is →
    ∃ t, steps is.length s = some t ∧ t.inputs = [] ∧ t.config = s.config ∧
      ∀ off, off ≤ 999 →
        match lastCommit is off with
        | some e => t.color off = some (e.setWidth 8) ∧ t.glyph off = some s.config.filledGlyph
        | none => t.color off = s.color off ∧ t.glyph off = s.glyph off

/-- R91, R40: at every point between the commands of a program, at every offset a pair commit has reached, the observer
reads the filled-block code in the glyph plane and, in bits 3:0 of the colour plane, the entry of the last pair
commit; under `asWritten` the colour byte is exactly the ordinal. -/
def Obligations.GlyphAndColourAreObservedAsAPair : Prop :=
  ∀ (s : State) (is later : List Instr), s.config.admitted = true → s.mem.wf → (∀ i ∈ is, i.wf = true) →
    s.inputs = presented (is ++ later) →
    ∃ t, steps is.length s = some t ∧
      ∀ (off : Nat) (e : Entry) (draw : BitVec 4), off ≤ 999 → lastCommit is off = some e →
        memRead t draw (t.config.glyphBase + off) = some t.config.filledGlyph ∧
        ∃ v, memRead t draw (t.config.colorBase + off) = some v ∧ v.extractLsb' 0 4 = e ∧
          (t.config.colorHiRead = .asWritten → v = e.setWidth 8)

/-- R89, R68: WRMANY writes its points in order, each committed on its own: both bytes of every cell are then those of
the last in-bounds point there, out-of-bounds points change nothing, and an empty sequence changes nothing at all. -/
def Obligations.WrmanyWritesItsPointsInOrder : Prop :=
  ∀ (s : State) (points : List (Int × Int × Entry)), s.config.admitted = true → s.mem.wf →
    (∀ p ∈ points, inS32 p.1 = true ∧ inS32 p.2.1 = true) →
    ∃ t, runHost (SourceLine.wrmany points).expand s = .next t ∧ t.inputs = s.inputs ∧ (points = [] → t = s) ∧
      ∀ off, off ≤ 999 →
        match lastCommit (points.map fun p => .wrpt p.1 p.2.1 p.2.2) off with
        | some e => t.color off = some (e.setWidth 8) ∧ t.glyph off = some s.config.filledGlyph
        | none => t.color off = s.color off ∧ t.glyph off = s.glyph off

/-- R68, R4: each PLOT pseudo-instruction quantizes its colour and then writes the point with the entry of the
response; NOP is DIM. -/
def Obligations.PlotWritesTheQuantizedColour : Prop :=
  ∀ (s : State) (x y : Int), s.config.admitted = true → inS32 x = true → inS32 y = true →
    (∀ l : Byte, runHost (SourceLine.plotg x y l).expand s =
      exec (.wrpt x y (s.config.quantGray l)) (s.answering ((s.config.quantGray l).setWidth 24))) ∧
    (∀ r g b : Chan5, runHost (SourceLine.plot15 x y r g b).expand s =
      exec (.wrpt x y (s.config.quantGray (s.config.luma15 r g b)))
        (s.answering ((s.config.quantGray (s.config.luma15 r g b)).setWidth 24))) ∧
    (∀ r g b : Byte, runHost (SourceLine.plot24 x y r g b).expand s =
      exec (.wrpt x y (s.config.quantGray (s.config.luma24 r g b)))
        (s.answering ((s.config.quantGray (s.config.luma24 r g b)).setWidth 24))) ∧
    runHost SourceLine.nop.expand s = .next (s.answering 0x001928)

/-! ### Encoding -/

/-- R63, R69: the decoder reads back every well-formed command from its encoding, with every operand at every value. -/
def Obligations.DecodeOfEncodeIsTheInstruction : Prop :=
  ∀ i : Instr, i.wf = true → decode (encode i) = .ok i

/-- R61, R63, R69: a command that decodes is, in `W0`, and for WRPT in all three words, the encoding of the well-formed
instruction it decodes to. -/
def Obligations.EncodeOfDecodeIsTheCommand : Prop :=
  ∀ (c : Command) (i : Instr), decode c = .ok i →
    i.wf = true ∧ (encode i).w0 = c.w0 ∧ ((∃ x y e, i = .wrpt x y e) → encode i = c)

/-- R63: every command either decodes to exactly one row of the opcode table, the one whose mask and match it meets, or
meets no row and is illegal. -/
def Obligations.DecodesAsTheUniqueMatchingRow : Prop :=
  ∀ c : Command,
    (∃ i, decode c = .ok i ∧ (i.rowMatch, i.rowMask) ∈ opcodeRows ∧
      ∀ row ∈ opcodeRows, c.w0 &&& row.2 = row.1 ↔ row = (i.rowMatch, i.rowMask)) ∨
    ((∃ why, decode c = .error why) ∧ ∀ row ∈ opcodeRows, c.w0 &&& row.2 ≠ row.1)

/-- R64: a reserved opcode is refused as one, and an assigned opcode with a must-be-zero bit set (it meets no row) is
refused as that. -/
def Obligations.ReservedEncodingsAreIllegal : Prop :=
  ∀ c : Command,
    ((c.w0.extractLsb' 0 4 = 0 ∨ 10 ≤ (c.w0.extractLsb' 0 4).toNat) →
      decode c = .error (.reservedOpcode (c.w0.extractLsb' 0 4))) ∧
    (1 ≤ (c.w0.extractLsb' 0 4).toNat → (c.w0.extractLsb' 0 4).toNat ≤ 9 →
      (∀ row ∈ opcodeRows, c.w0 &&& row.2 ≠ row.1) →
      decode c = .error (.reservedBits (c.w0.extractLsb' 0 4)))

/-- R61, R64: `W1` and `W2` do not change the meaning of a command other than WRPT, and never make any command
illegal. -/
def Obligations.OtherWordsMatterOnlyToWrpt : Prop :=
  ∀ c d : Command, c.w0 = d.w0 →
    (c.w0.extractLsb' 0 4 ≠ 0x8#4 → decode c = decode d) ∧
    (∀ i, decode c = .ok i → ∃ j, decode d = .ok j) ∧
    ∀ x y e, decode c = .ok (.wrpt x y e) → x = c.w1.toInt ∧ y = c.w2.toInt

/-- R69: the words of an encoding by the rule's own shifts, and its example. -/
def Obligations.EncodingFollowsTheShiftFormula : Prop :=
  (∀ i : Instr, ∃ d e : Word32,
    (encode i).w0 = (d <<< 8) ||| (e <<< 4) ||| i.opcode.setWidth 32 ∧
    match i with
    | .qgray l => d = l.setWidth 32 ∧ e = 0 ∧ (encode i).w1 = 0 ∧ (encode i).w2 = 0
    | .q15 r g b => d = (r.setWidth 32 <<< 10) ||| (g.setWidth 32 <<< 5) ||| b.setWidth 32 ∧ e = 0 ∧
        (encode i).w1 = 0 ∧ (encode i).w2 = 0
    | .q24 r g b => d = (r.setWidth 32 <<< 16) ||| (g.setWidth 32 <<< 8) ||| b.setWidth 32 ∧ e = 0 ∧
        (encode i).w1 = 0 ∧ (encode i).w2 = 0
    | .torgb n => d = 0 ∧ e = n.setWidth 32 ∧ (encode i).w1 = 0 ∧ (encode i).w2 = 0
    | .pack n => d = 0 ∧ e = n.setWidth 32 ∧ (encode i).w1 = 0 ∧ (encode i).w2 = 0
    | .unpack n => d = 0 ∧ e = n.setWidth 32 ∧ (encode i).w1 = 0 ∧ (encode i).w2 = 0
    | .dim => d = 0 ∧ e = 0 ∧ (encode i).w1 = 0 ∧ (encode i).w2 = 0
    | .wrpt x y n => d = 0 ∧ e = n.setWidth 32 ∧
        ((encode i).w1.toNat : Int) = x % 2 ^ 32 ∧ ((encode i).w2.toNat : Int) = y % 2 ^ 32
    | .clear n => d = 0 ∧ e = n.setWidth 32 ∧ (encode i).w1 = 0 ∧ (encode i).w2 = 0) ∧
  encode (.wrpt 5 5 7) = Command.ofWords 0x00000078 0x00000005 0x00000005

/-- R53 (with R52): the three words of a command in the order W0, W1, W2, and its twelve bytes on a byte transport,
byte 0 first; both carry the whole command, and the decoder reads it from its bytes. -/
def Obligations.TransportsCarryTheCommand : Prop :=
  ∀ c : Command, Command.ofWords c.w0 c.w1 c.w2 = c ∧ c.toBytes.length = 12 ∧
    (∀ k, k < 12 → c.toBytes[k]? = some (c.extractLsb' (8 * k) 8)) ∧
    Command.ofBytes c.toBytes = some c ∧ decodeBytes c.toBytes = decode c

/-- R67: every command or write point the assembler gives is well formed: its coordinates are values of `s32`. -/
def Obligations.AssembledLinesAreWellFormed : Prop :=
  ∀ (line : String) (l : SourceLine), assemble line = some l →
    match l with
    | .command i => i.wf = true
    | .wrmany points => ∀ p ∈ points, inS32 p.1 = true ∧ inS32 p.2.1 = true
    | .plotg x y _ => inS32 x = true ∧ inS32 y = true
    | .plot15 x y _ _ _ => inS32 x = true ∧ inS32 y = true
    | .plot24 x y _ _ _ => inS32 x = true ∧ inS32 y = true
    | .nop => True

/-- Words of spec/95_test_vectors.md decode to the commands they are listed for. -/
def Obligations.ListedWordsDecode : Prop :=
  decode (Command.ofWords 0x0000C801 0 0) = .ok (.qgray 200) ∧
  decode (Command.ofWords 0x007C0002 0 0) = .ok (.q15 31 0 0) ∧
  decode (Command.ofWords 0x807F7F03 0 0) = .ok (.q24 128 127 127) ∧
  decode (Command.ofWords 0x00000064 0 0) = .ok (.torgb 6) ∧
  decode (Command.ofWords 0x00000025 0 0) = .ok (.pack 2) ∧
  decode (Command.ofWords 0x00000076 0 0) = .ok (.unpack 7) ∧
  decode (Command.ofWords 0x00000007 0x12345678 0x9ABCDEF0) = .ok .dim ∧
  decode (Command.ofWords 0x00000058 0xFFFFFFD8 0x00000001) = .ok (.wrpt (-40) 1 5) ∧
  decode (Command.ofWords 0x000000F9 0 0) = .ok (.clear 15)
end

