-- ==== Sys2Proof/Laws/Decode.lean ====
section
/-! SUPPORT. The fields of the words an encoder builds, one lemma per field (spec/30_encoding.md R52, R54). -/

namespace Sys2Proof

@[simp] theorem Command.ofWords_w0 (w0 w1 w2 : Word32) : (Command.ofWords w0 w1 w2).w0 = w0 := by
  simp only [Command.ofWords, Command.w0]
  rw [BitVec.extractLsb'_append_eq_right]

@[simp] theorem Command.ofWords_w1 (w0 w1 w2 : Word32) : (Command.ofWords w0 w1 w2).w1 = w1 := by
  simp only [Command.ofWords, Command.w1]
  rw [BitVec.extractLsb'_append_eq_of_le (by decide), BitVec.extractLsb'_append_eq_right]

@[simp] theorem Command.ofWords_w2 (w0 w1 w2 : Word32) : (Command.ofWords w0 w1 w2).w2 = w2 := by
  simp only [Command.ofWords, Command.w2]
  rw [BitVec.extractLsb'_append_eq_of_le (by decide), BitVec.extractLsb'_append_eq_left]

/-- A command is the word vector of its three words. -/
theorem Command.ofWords_self (c : Command) : Command.ofWords c.w0 c.w1 c.w2 = c := by
  apply BitVec.eq_of_getLsbD_eq
  intro i hi
  simp only [Command.ofWords, Command.w0, Command.w1, Command.w2, BitVec.getLsbD_append, BitVec.getLsbD_extractLsb']
  by_cases h0 : i < 32
  · simp [h0]
  · by_cases h1 : i - 32 < 32
    · simp only [h0, h1, if_false, if_true, decide_true, Bool.true_and, decide_false]
      congr 1; omega
    · have h2 : i - 32 - 32 < 32 := by omega
      simp only [h0, h1, h2, if_false, decide_true, Bool.true_and, decide_false]
      congr 1; omega

@[simp] theorem wordZero_opField (d : BitVec 24) (e op : BitVec 4) : (wordZero d e op).extractLsb' 0 4 = op := by
  simp only [wordZero]
  rw [BitVec.extractLsb'_append_eq_right]

@[simp] theorem wordZero_entryField (d : BitVec 24) (e op : BitVec 4) : (wordZero d e op).extractLsb' 4 4 = e := by
  simp only [wordZero]
  rw [BitVec.extractLsb'_append_eq_of_le (by decide), BitVec.extractLsb'_append_eq_right]

/-- A field of `W0` above bit 7 is a field of `D`, eight bits lower. -/
theorem wordZero_dataField (d : BitVec 24) (e op : BitVec 4) (k n : Nat) :
    (wordZero d e op).extractLsb' (k + 8) n = d.extractLsb' k n := by
  simp only [wordZero]
  rw [BitVec.extractLsb'_append_eq_of_le (by omega), BitVec.extractLsb'_append_eq_of_le (by omega)]
  rfl

/-- `W0` is put together from its three fields. -/
theorem wordZero_self (w : Word32) :
    wordZero (w.extractLsb' 8 24) (w.extractLsb' 4 4) (w.extractLsb' 0 4) = w := by
  apply BitVec.eq_of_getLsbD_eq
  intro i hi
  simp only [wordZero, BitVec.getLsbD_append, BitVec.getLsbD_extractLsb']
  by_cases h0 : i < 4
  · simp [h0]
  · by_cases h1 : i - 4 < 4
    · simp only [h0, h1, if_false, if_true, decide_true, Bool.true_and, decide_false]
      congr 1; omega
    · have h2 : i - 4 - 4 < 24 := by omega
      simp only [h0, h1, h2, if_false, decide_true, Bool.true_and, decide_false]
      congr 1; omega

/-- What a must-be-zero check can answer. -/
theorem mustBeZero_ok_iff {zero : Bool} {op : BitVec 4} {i j : Instr} :
    mustBeZero zero op i = .ok j ↔ zero = true ∧ i = j := by
  unfold mustBeZero
  split <;> simp_all

/-- The words of an encoded command. -/
@[simp] theorem encode_w0 (i : Instr) : (encode i).w0 = wordZero i.dataField i.entryField i.opcode := by
  simp [encode]

@[simp] theorem encode_w1 (i : Instr) : (encode i).w1 = i.xField := by
  simp [encode]

@[simp] theorem encode_w2 (i : Instr) : (encode i).w2 = i.yField := by
  simp [encode]

end Sys2Proof
end

