-- ==== Sys2Proof/Laws/Memory.lean ====
section
/-! SUPPORT. The laws of the memory operations: what a read gives after a write, a list of writes or a fill, and that
each of them keeps the memory's form. -/

namespace Sys2Proof.Machine

variable {m : Memory} {a b : Nat} {v : Byte}

@[simp] theorem Memory.read_nil (a : Nat) : Memory.read [] a = none := rfl

@[simp] theorem Memory.read_cons (p : Host.Cell) (m : Memory) (a : Nat) :
    Memory.read (p :: m) a = if p.1 = a then some p.2 else m.read a := rfl

/-- Reading past a prefix that does not list the address. -/
theorem Memory.read_append (m n : Memory) (a : Nat) :
    Memory.read (m ++ n) a = (m.read a).or (n.read a) := by
  induction m with
  | nil => rfl
  | cons p m ih =>
    simp only [List.cons_append, Memory.read_cons, ih]
    split <;> rfl

/-- An address below every listed one has no value. -/
theorem Memory.read_eq_none (h : ∀ p ∈ m, p.1 ≠ a) : m.read a = none := by
  induction m with
  | nil => rfl
  | cons p m ih =>
    rw [Memory.read_cons, if_neg (h p (by simp)), ih fun q hq => h q (by simp [hq])]

/-- A value read is the value of a listed pair. -/
theorem Memory.mem_of_read (h : m.read a = some v) : (a, v) ∈ m := by
  induction m with
  | nil => simp at h
  | cons p m ih =>
    obtain ⟨b, w⟩ := p
    rw [Memory.read_cons] at h
    split at h
    · next hb =>
      simp only at hb
      simp_all
    · simp [ih h]

/-- Read after write. -/
theorem Memory.read_write (hm : m.wf) (a : Nat) (v : Byte) (b : Nat) :
    (m.write a v).read b = if a = b then some v else m.read b := by
  induction m with
  | nil => rfl
  | cons p m ih =>
    obtain ⟨c, w⟩ := p
    have hm' := List.pairwise_cons.mp hm
    simp only [Memory.write]
    split
    · simp only [Memory.read_cons]
    · split
      · next hac =>
        subst hac
        simp only [Memory.read_cons]
        split <;> rfl
      · next hlt hne =>
        simp only [Memory.read_cons, ih hm'.2]
        split
        · next hcb => rw [if_neg (by omega)]
        · rfl

/-- A listed pair after a write is the written one or was listed before. -/
theorem Memory.mem_write {p : Host.Cell} (h : p ∈ m.write a v) : p = (a, v) ∨ p ∈ m := by
  induction m with
  | nil => simpa [Memory.write] using h
  | cons q m ih =>
    obtain ⟨c, w⟩ := q
    simp only [Memory.write] at h
    split at h
    · simpa using h
    · split at h
      · rcases List.mem_cons.mp h with h | h
        · exact .inl h
        · exact .inr (List.mem_cons_of_mem _ h)
      · rcases List.mem_cons.mp h with h | h
        · exact .inr (by simp [h])
        · exact (ih h).imp id (List.mem_cons_of_mem _)

/-- A write keeps the form. -/
theorem Memory.write_wf (hm : m.wf) (a : Nat) (v : Byte) : (m.write a v).wf := by
  induction m with
  | nil => simp [Memory.wf, Memory.write]
  | cons p m ih =>
    obtain ⟨c, w⟩ := p
    have hm' := List.pairwise_cons.mp hm
    simp only [Memory.write]
    split
    · next hac =>
      refine List.pairwise_cons.mpr ⟨fun q hq => ?_, hm⟩
      rcases List.mem_cons.mp hq with rfl | hq
      · exact hac
      · exact Nat.lt_trans hac (hm'.1 q hq)
    · split
      · next hac =>
        subst hac
        exact List.pairwise_cons.mpr ⟨hm'.1, hm'.2⟩
      · refine List.pairwise_cons.mpr ⟨fun q hq => ?_, ih hm'.2⟩
        rcases Memory.mem_write hq with rfl | hq
        · simp only; omega
        · exact hm'.1 q hq

@[simp] theorem Memory.writeAll_nil (m : Memory) : m.writeAll [] = m := rfl

@[simp] theorem Memory.writeAll_cons (m : Memory) (p : Host.Cell) (ws : List Host.Cell) :
    m.writeAll (p :: ws) = (m.write p.1 p.2).writeAll ws := rfl

/-- A list of writes keeps the form. -/
theorem Memory.writeAll_wf (hm : m.wf) (ws : List Host.Cell) : (m.writeAll ws).wf := by
  induction ws generalizing m with
  | nil => exact hm
  | cons p ws ih => exact ih (Memory.write_wf hm p.1 p.2)

/-- A listed pair after a list of writes is one of them or was listed before. -/
theorem Memory.mem_writeAll {p : Host.Cell} {ws : List Host.Cell} (h : p ∈ m.writeAll ws) : p ∈ ws ∨ p ∈ m := by
  induction ws generalizing m with
  | nil => exact .inr h
  | cons q ws ih =>
    rcases ih (m := m.write q.1 q.2) h with h | h
    · exact .inl (List.mem_cons_of_mem _ h)
    · rcases Memory.mem_write h with rfl | h
      · exact .inl (by simp)
      · exact .inr h

/-- Read after a list of writes: the last write at the address, else what was there. -/
theorem Memory.read_writeAll (hm : m.wf) (ws : List Host.Cell) (a : Nat) :
    (m.writeAll ws).read a = (Memory.read ws.reverse a).or (m.read a) := by
  induction ws generalizing m with
  | nil => rfl
  | cons p ws ih =>
    rw [Memory.writeAll_cons, ih (Memory.write_wf hm _ _), Memory.read_write hm, List.reverse_cons,
      Memory.read_append, Memory.read_cons]
    cases Memory.read ws.reverse a with
    | some x => rfl
    | none => split <;> rfl

/-- The bytes of a run of addresses. -/
theorem Memory.read_run (a n : Nat) (v : Byte) (b : Nat) :
    Memory.read ((List.range n).map fun k => (a + k, v)) b = if a ≤ b ∧ b < a + n then some v else none := by
  induction n with
  | zero => simp
  | succ n ih =>
    rw [List.range_succ, List.map_append, Memory.read_append, ih]
    simp only [List.map_cons, List.map_nil, Memory.read_cons, Memory.read_nil]
    by_cases h1 : a ≤ b ∧ b < a + n
    · have h2 : a ≤ b ∧ b < a + (n + 1) := by omega
      simp only [h1, h2, and_self, if_true, Option.some_or]
    · by_cases h2 : a + n = b
      · have h3 : a ≤ b ∧ b < a + (n + 1) := by omega
        rw [if_neg h1, if_pos h2, if_pos h3, Option.none_or]
      · have h3 : ¬(a ≤ b ∧ b < a + (n + 1)) := by omega
        simp only [h1, h2, h3, if_false, Option.none_or]

/-- Reading through a filter on addresses. -/
theorem Memory.read_filter (f : Nat → Bool) (m : Memory) (a : Nat) :
    Memory.read (m.filter fun p => f p.1) a = if f a then m.read a else none := by
  induction m with
  | nil => simp
  | cons p m ih =>
    rw [List.filter_cons]
    by_cases hp : p.1 = a
    · subst hp
      split <;> simp [*]
    · split <;> simp [ih, hp]

/-- Read after a fill. -/
theorem Memory.read_fill (m : Memory) (a n : Nat) (v : Byte) (b : Nat) :
    (m.fill a n v).read b = if a ≤ b ∧ b < a + n then some v else m.read b := by
  unfold Memory.fill
  rw [Memory.read_append, Memory.read_append, Memory.read_run,
    Memory.read_filter (fun x => decide (x < a)), Memory.read_filter (fun x => decide (a + n ≤ x))]
  by_cases h1 : b < a
  · have h2 : ¬(a ≤ b ∧ b < a + n) := by omega
    have h3 : ¬(a + n ≤ b) := by omega
    simp only [h1, h2, h3, decide_true, decide_false, if_true, if_false, Bool.false_eq_true, Option.or_none]
  · by_cases h2 : b < a + n
    · have h3 : a ≤ b ∧ b < a + n := by omega
      simp only [h1, h3, and_self, decide_false, if_true, if_false, Bool.false_eq_true, Option.none_or, Option.some_or]
    · have h3 : ¬(a ≤ b ∧ b < a + n) := by omega
      have h4 : a + n ≤ b := by omega
      simp only [h1, h3, h4, decide_true, decide_false, if_true, if_false, Bool.false_eq_true, Option.none_or]

/-- A listed pair after a fill is one of the fill's or was listed before. -/
theorem Memory.mem_fill {n : Nat} {p : Host.Cell} (h : p ∈ m.fill a n v) :
    (a ≤ p.1 ∧ p.1 < a + n ∧ p.2 = v) ∨ p ∈ m := by
  simp only [Memory.fill, List.mem_append, List.mem_filter, List.mem_map, List.mem_range] at h
  rcases h with (h | ⟨k, hk, rfl⟩) | h
  · exact .inr h.1
  · exact .inl ⟨by simp, by simpa using hk, rfl⟩
  · exact .inr h.1

/-- A fill keeps the form. -/
theorem Memory.fill_wf (hm : m.wf) (a n : Nat) (v : Byte) : (m.fill a n v).wf := by
  refine List.pairwise_append.mpr ⟨List.pairwise_append.mpr ⟨hm.filter _, ?_, ?_⟩, hm.filter _, ?_⟩
  · exact List.pairwise_map.mpr (List.pairwise_lt_range.imp fun h => by simpa using h)
  · intro p hp q hq
    simp only [List.mem_filter, List.mem_map, List.mem_range, decide_eq_true_eq] at hp hq
    obtain ⟨k, -, rfl⟩ := hq
    simp only; omega
  · intro p hp q hq
    simp only [List.mem_append, List.mem_filter, List.mem_map, List.mem_range, decide_eq_true_eq] at hp hq
    rcases hp with hp | ⟨k, hk, rfl⟩
    · omega
    · simp only; omega

/-- Two memories in form that read the same everywhere are the same data. -/
theorem Memory.ext_read {m n : Memory} (hm : m.wf) (hn : n.wf) (h : ∀ a, m.read a = n.read a) : m = n := by
  induction m generalizing n with
  | nil =>
    cases n with
    | nil => rfl
    | cons q n => simpa using h q.1
  | cons p m ih =>
    cases n with
    | nil => simpa using h p.1
    | cons q n =>
      have hm' := List.pairwise_cons.mp hm
      have hn' := List.pairwise_cons.mp hn
      have below {k : Memory} {x : Host.Cell} (hk : ∀ y ∈ k, x.1 < y.1) : k.read x.1 = none :=
        Memory.read_eq_none fun y hy => Nat.ne_of_gt (hk y hy)
      have hpq : p.1 = q.1 := by
        by_contra hne
        have h1 := h p.1
        have h2 := h q.1
        rw [Memory.read_cons, if_pos rfl, Memory.read_cons, if_neg (Ne.symm hne)] at h1
        rw [Memory.read_cons, if_neg hne, Memory.read_cons, if_pos rfl] at h2
        have l1 := hn'.1 _ (Memory.mem_of_read h1.symm)
        have l2 := hm'.1 _ (Memory.mem_of_read h2)
        simp only at l1 l2
        omega
      have hv : p.2 = q.2 := by
        have := h p.1
        rw [Memory.read_cons, if_pos rfl, Memory.read_cons, if_pos hpq.symm] at this
        exact Option.some.inj this
      have htail : m = n := by
        refine ih hm'.2 hn'.2 fun a => ?_
        have := h a
        rw [Memory.read_cons, Memory.read_cons, ← hpq, ← hv] at this
        by_cases hpa : p.1 = a
        · subst hpa
          rw [below hm'.1, hpq, below hn'.1]
        · rwa [if_neg hpa, if_neg hpa] at this
      rw [htail, Prod.ext hpq hv]

end Sys2Proof.Machine
end

