-- ==== Sys2Proof/Laws/State.lean ====
section
/-! SUPPORT. The field lemmas of the state's updates, one per field per update, and what the gate and the completion
of a command can answer. -/

namespace Sys2Proof.Machine

section fields
variable (s : State) (m : Memory) (ws : List Host.Cell) (r : Response) (ins : List Input) (c : Command)

@[simp] theorem State.served_config : (s.served m ws r).config = s.config := rfl
@[simp] theorem State.served_mem : (s.served m ws r).mem = m := rfl
@[simp] theorem State.served_resp : (s.served m ws r).resp = some r := rfl
@[simp] theorem State.served_writePort : (s.served m ws r).writePort = ws := rfl
@[simp] theorem State.served_inputs : (s.served m ws r).inputs = s.inputs := rfl

@[simp] theorem State.quiet_config : s.quiet.config = s.config := rfl
@[simp] theorem State.quiet_mem : s.quiet.mem = s.mem := rfl
@[simp] theorem State.quiet_resp : s.quiet.resp = none := rfl
@[simp] theorem State.quiet_writePort : s.quiet.writePort = [] := rfl
@[simp] theorem State.quiet_inputs : s.quiet.inputs = s.inputs := rfl

@[simp] theorem State.withInputs_config : (s.withInputs ins).config = s.config := rfl
@[simp] theorem State.withInputs_mem : (s.withInputs ins).mem = s.mem := rfl
@[simp] theorem State.withInputs_resp : (s.withInputs ins).resp = s.resp := rfl
@[simp] theorem State.withInputs_writePort : (s.withInputs ins).writePort = s.writePort := rfl
@[simp] theorem State.withInputs_inputs : (s.withInputs ins).inputs = ins := rfl

@[simp] theorem State.present_config : (s.present c).config = s.config := rfl
@[simp] theorem State.present_mem : (s.present c).mem = s.mem := rfl
@[simp] theorem State.present_resp : (s.present c).resp = s.resp := rfl
@[simp] theorem State.present_writePort : (s.present c).writePort = s.writePort := rfl
@[simp] theorem State.present_inputs : (s.present c).inputs = .command c :: s.inputs := rfl

@[simp] theorem State.withInputs_self : s.withInputs s.inputs = s := rfl
@[simp] theorem State.withInputs_twice (ins' : List Input) :
    (s.withInputs ins).withInputs ins' = s.withInputs ins' := rfl

end fields

@[simp] theorem Status.line_ok : Status.ok.line = 0#1 := rfl
@[simp] theorem Status.line_illegal : Status.illegal.line = 1#1 := rfl

/-- The status line tells the two statuses apart (R66). -/
@[simp] theorem Status.line_inj {a b : Status} : a.line = b.line ↔ a = b := by
  cases a <;> cases b <;> decide

variable {s t u : State} {m : Memory} {ws : List Host.Cell} {v : BitVec 24}

/-- In an admitted configuration the gate lets the step through. -/
theorem proceed_of_admitted (h : s.config.admitted = true) : proceed s t = .next t := by
  simp [proceed, h]

/-- The gate answers a next state only in an admitted configuration, and then the one it was given. -/
theorem proceed_next_iff : proceed s t = .next u ↔ s.config.admitted = true ∧ t = u := by
  unfold proceed
  split <;> simp_all

/-- The gate never faults. -/
theorem proceed_not_fault (f : Fault) : proceed s t ≠ .fault f := nomatch f

/-- Everything a completion can answer with a next state. -/
theorem complete_next_iff :
    complete s m ws v = .next t ↔ s.config.admitted = true ∧ t = s.served m ws ⟨.ok, v⟩ := by
  rw [complete, proceed_next_iff, eq_comm (a := t)]

/-- Everything a command that reaches no memory can answer with a next state. -/
theorem respond_next_iff :
    respond s v = .next t ↔ s.config.admitted = true ∧ t = s.served s.mem [] ⟨.ok, v⟩ :=
  complete_next_iff

end Sys2Proof.Machine
end

