-- ==== Sys2Proof/Laws/Exec.lean ====
section
/-! SUPPORT. What the shared operations of the commands can do, said once: the writes of a write point and of CLEAR,
the memory after CLEAR, and the next states of `exec`. -/

namespace Sys2Proof.Machine

variable {c : Config} {x y : Int} {e : Entry} {m : Memory}

/-- The bounds check on the mathematical values (R83). -/
theorem inbounds_iff : inbounds x y = true ↔ 0 ≤ x ∧ x < 40 ∧ 0 ≤ y ∧ y < 25 := by
  simp [inbounds, and_assoc]

/-- The offset of an in-bounds cell (R84). -/
theorem offset_cast (hx : 0 ≤ x) (hy : 0 ≤ y) : (offset x y : Int) = x + 40 * y := by
  simp only [offset, cols, Nat.cast_ofNat]; omega

/-- The offset of a cell given by natural numbers. -/
theorem offset_nat (a b : Nat) : offset (a : Int) (b : Int) = a + 40 * b := by
  simp only [offset, cols, Nat.cast_ofNat]; omega

/-- An in-bounds cell has an offset of the plane (R84). -/
theorem offset_lt (h : inbounds x y = true) : offset x y < 1000 := by
  have := inbounds_iff.mp h
  simp only [offset, cols, Nat.cast_ofNat]; omega

/-- The writes of an in-bounds write point (R85, R87). -/
theorem pointWrites_inbounds (h : inbounds x y = true) :
    pointWrites c x y e =
      [(c.colorBase + offset x y, e.setWidth 8), (c.glyphBase + offset x y, c.filledGlyph)] := by
  simp [pointWrites, pairCommit, h]

/-- A dropped write point writes nothing (R87). -/
theorem pointWrites_outside (h : inbounds x y = false) : pointWrites c x y e = [] := by
  simp [pointWrites, h]

/-- CLEAR's offsets are 0 to 999, in increasing order (R88). -/
theorem cellsInOrder_offsets : cellsInOrder.map (fun p => p.1 + 40 * p.2) = List.range 1000 := by
  decide +kernel

/-- The writes of CLEAR, by offset (R88). -/
theorem clearWrites_eq :
    clearWrites c e = (List.range 1000).flatMap fun off =>
      [(c.colorBase + off, e.setWidth 8), (c.glyphBase + off, c.filledGlyph)] := by
  rw [← cellsInOrder_offsets, List.flatMap_map]
  simp only [clearWrites, pairCommit, offset_nat]

/-- A write CLEAR issues is one of a pair commit at some offset. -/
theorem mem_clearWrites {p : Host.Cell} :
    p ∈ clearWrites c e ↔ ∃ off, off < 1000 ∧
      (p = (c.colorBase + off, e.setWidth 8) ∨ p = (c.glyphBase + off, c.filledGlyph)) := by
  simp [clearWrites_eq]

/-- CLEAR issues 2000 writes (R92). -/
theorem clearWrites_length : (clearWrites c e).length = 2000 := by
  rw [clearWrites_eq, List.length_flatMap]
  simp only [List.length_cons, List.length_nil, List.map_const', List.length_range, List.sum_replicate_nat]

/-- The memory after CLEAR, read at any address (R88). -/
theorem clearMemory_read (a : Nat) :
    (clearMemory c e m).read a =
      if inGlyphPlane c a then some c.filledGlyph
      else if inColorPlane c a then some (e.setWidth 8)
      else m.read a := by
  have hg : (c.glyphBase ≤ a ∧ a < c.glyphBase + cells) ↔ inGlyphPlane c a := by
    simp only [inGlyphPlane, cells]; omega
  have hc : (c.colorBase ≤ a ∧ a < c.colorBase + cells) ↔ inColorPlane c a := by
    simp only [inColorPlane, cells]; omega
  simp only [clearMemory, Memory.read_fill, hg, hc]

/-- CLEAR keeps the memory's form. -/
theorem clearMemory_wf (hm : m.wf) : (clearMemory c e m).wf :=
  Memory.fill_wf (Memory.fill_wf hm _ _ _) _ _ _

/-- The conditions of R11 and R30 that the admission check decides. -/
theorem admitted_iff : c.admitted = true ↔
    c.glyphBase + 999 < 2 ^ c.addrW ∧ c.colorBase + 999 < 2 ^ c.addrW ∧
    (c.glyphBase + 999 < c.colorBase ∨ c.colorBase + 999 < c.glyphBase) ∧
    c.paletteRgb.toList.Nodup ∧ c.paletteRgb[6] = ⟨0, 0, 170⟩ := by
  simp only [Config.admitted, Bool.and_eq_true, decide_eq_true_eq, cells]
  constructor
  · rintro ⟨⟨⟨⟨h1, h2⟩, h3⟩, h4⟩, h5⟩
    exact ⟨by omega, by omega, by omega, h4, h5⟩
  · rintro ⟨h1, h2, h3, h4, h5⟩
    exact ⟨⟨⟨⟨by omega, by omega⟩, by omega⟩, h4⟩, h5⟩

/-- Everything `exec` can answer with a next state: the configuration is admitted, the response is `(OK, v)`, and the
planes and the write port are as the command's own writes leave them. -/
theorem exec_next {i : Instr} {s t : State} (h : exec i s = .next t) :
    s.config.admitted = true ∧ ∃ m ws v, t = s.served m ws ⟨.ok, v⟩ ∧
      ((m = s.mem ∧ ws = []) ∨
       (∃ x y e, i = .wrpt x y e ∧ ws = pointWrites s.config x y e ∧ m = s.mem.writeAll ws) ∨
       (∃ e, i = .clear e ∧ ws = clearWrites s.config e ∧ m = clearMemory s.config e s.mem)) := by
  cases i with
  | wrpt x y e =>
    obtain ⟨ha, rfl⟩ := complete_next_iff.mp h
    exact ⟨ha, _, _, _, rfl, .inr (.inl ⟨x, y, e, rfl, rfl, rfl⟩)⟩
  | clear e =>
    obtain ⟨ha, rfl⟩ := complete_next_iff.mp h
    exact ⟨ha, _, _, _, rfl, .inr (.inr ⟨e, rfl, rfl, rfl⟩)⟩
  | _ =>
    obtain ⟨ha, rfl⟩ := respond_next_iff.mp h
    exact ⟨ha, _, _, _, rfl, .inl ⟨rfl, rfl⟩⟩

/-- A write RDQ issues lies inside the address space of an admitted configuration (R11, R39). -/
theorem planeWrite_in_space {p : Host.Cell} (hc : c.admitted = true) (hp : planeWrite c p) : p.1 < 2 ^ c.addrW := by
  have ha := admitted_iff.mp hc
  rcases hp with hp | hp <;> omega

end Sys2Proof.Machine
end

