-- ==== Sys2Proof/Laws/PerInstr.lean ====
section
/-! SUPPORT. Statements about every command, made per constructor. -/

namespace Sys2Proof.Laws

/-- The encoded command carries its opcode in `W0[3:0]` (R54, R62). -/
def OpcodeField.Statement (i : Instr) : Prop := (encode i).w0.extractLsb' 0 4 = i.opcode

theorem opcodeField_all (i : Instr) : OpcodeField.Statement i := by
  simp [OpcodeField.Statement]

theorem OpcodeField.qgray (l : Byte) : OpcodeField.Statement (.qgray l) := opcodeField_all _
theorem OpcodeField.q15 (r g b : Chan5) : OpcodeField.Statement (.q15 r g b) := opcodeField_all _
theorem OpcodeField.q24 (r g b : Byte) : OpcodeField.Statement (.q24 r g b) := opcodeField_all _
theorem OpcodeField.torgb (e : Entry) : OpcodeField.Statement (.torgb e) := opcodeField_all _
theorem OpcodeField.pack (e : Entry) : OpcodeField.Statement (.pack e) := opcodeField_all _
theorem OpcodeField.unpack (n : Entry) : OpcodeField.Statement (.unpack n) := opcodeField_all _
theorem OpcodeField.dim : OpcodeField.Statement .dim := opcodeField_all _
theorem OpcodeField.wrpt (x y : Int) (e : Entry) : OpcodeField.Statement (.wrpt x y e) := opcodeField_all _
theorem OpcodeField.clear (e : Entry) : OpcodeField.Statement (.clear e) := opcodeField_all _

end Sys2Proof.Laws
end

