-- ==== Sys2Proof/Laws/Step.lean ====
section
/-! SUPPORT. What one step can do, said once. -/

namespace Sys2Proof.Machine

variable {s t : State}

/-- Everything a step can answer with a next state: RDQ was idle, was reset, or executed one legal command. -/
theorem step_next (h : step s = .next t) :
    (s.config.admitted = true ∧ s.inputs = [] ∧ t = s.quiet) ∨
    (∃ rest, s.config.admitted = true ∧ s.inputs = .reset :: rest ∧ t = (s.withInputs rest).quiet) ∨
    (∃ c i rest, s.inputs = .command c :: rest ∧ decode c = .ok i ∧ exec i (s.withInputs rest) = .next t) := by
  unfold step takeInput at h
  split at h
  · next hi =>
    obtain ⟨ha, rfl⟩ := proceed_next_iff.mp h
    exact .inl ⟨ha, hi, rfl⟩
  · next i rest hi =>
    cases i with
    | command c =>
      simp only [accept, runCommand] at h
      split at h
      · next i hd => exact .inr (.inr ⟨c, i, rest, hi, hd, h⟩)
      · nomatch h
    | reset =>
      obtain ⟨ha, rfl⟩ := proceed_next_iff.mp h
      exact .inr (.inl ⟨rest, ha, hi, rfl⟩)
    | resetDuring c => nomatch h
    | secondHost c => nomatch h
    | foreignPlaneWrite a v => nomatch h

end Sys2Proof.Machine
end

