-- ==== Sys2Proof/Tests/Slice0.lean ====
section
/-! SUPPORT. Tests of the model: the smoke tests of WellFormed, words written out from the encoding of
spec/30_encoding.md, single steps whose expected results stand in spec/95_test_vectors.md (their ids are given), and
one witness for the hypotheses of each statement. -/

namespace Sys2Proof.Tests

open Sys2Proof Sys2Proof.Machine

/-! ### WellFormed -/

theorem test_wf_refuses_x_above : (Instr.wrpt 2147483648 0 1).wf = false := by decide
theorem test_wf_refuses_x_below : (Instr.wrpt (-2147483649) 0 1).wf = false := by decide
theorem test_wf_refuses_y_above : (Instr.wrpt 0 2147483648 1).wf = false := by decide
theorem test_wf_refuses_y_below : (Instr.wrpt 0 (-2147483649) 1).wf = false := by decide
theorem test_wf_takes_the_ends : (Instr.wrpt (-2147483648) 2147483647 1).wf = true := by decide

/-! ### Decoding, each word written out from its format (R55 to R60) -/

/-- A command with `W1 = W2 = 0`. -/
def one (w0 : Word32) : Command := Command.ofWords w0 0 0

-- FG: 31..16 zero, L, 7..4 zero, OP
theorem test_decode_qgray :
    decode (one (0b0000000000000000#16 ++ 0b00100000#8 ++ 0b0000#4 ++ 0b0001#4)) = .ok (.qgray 32) := by decide
-- F15: 31..23 zero, R5, G5, B5, 7..4 zero, OP
theorem test_decode_q15 :
    decode (one (0b000000000#9 ++ 0b11111#5 ++ 0b00010#5 ++ 0b00001#5 ++ 0b0000#4 ++ 0b0010#4)) =
      .ok (.q15 31 2 1) := by decide
-- F24: R8, G8, B8, 7..4 zero, OP
theorem test_decode_q24 :
    decode (one (0b10000000#8 ++ 0b01111111#8 ++ 0b00000001#8 ++ 0b0000#4 ++ 0b0011#4)) =
      .ok (.q24 128 127 1) := by decide
-- FE: 31..8 zero, E, OP
theorem test_decode_torgb : decode (one (0#24 ++ 0b1110#4 ++ 0b0100#4)) = .ok (.torgb 14) := by decide
theorem test_decode_pack : decode (one (0#24 ++ 0b1001#4 ++ 0b0101#4)) = .ok (.pack 9) := by decide
theorem test_decode_unpack : decode (one (0#24 ++ 0b0111#4 ++ 0b0110#4)) = .ok (.unpack 7) := by decide
-- FN: 31..4 zero, OP
theorem test_decode_dim : decode (one (0#28 ++ 0b0111#4)) = .ok .dim := by decide
-- FP: FE's W0, W1 = X, W2 = Y (V-W16, V-W9, V-W12)
theorem test_decode_wrpt :
    decode (Command.ofWords (0#24 ++ 0b0101#4 ++ 0b1000#4) 0xFFFFFFD8 0x00000001) = .ok (.wrpt (-40) 1 5) := by decide
theorem test_decode_wrpt_ends :
    decode (Command.ofWords 0x00000058 0x80000000 0x7FFFFFFF) = .ok (.wrpt (-2147483648) 2147483647 5) := by decide
theorem test_decode_clear : decode (one (0#24 ++ 0b0110#4 ++ 0b1001#4)) = .ok (.clear 6) := by decide
-- R69's example, and a negative coordinate
theorem test_encode_wrpt : encode (.wrpt 5 5 7) = Command.ofWords 0x00000078 0x00000005 0x00000005 := by decide
theorem test_encode_q15 : encode (.q15 15 15 15) = one 0x003DEF02 := by decide

-- V-I1, V-I3
theorem test_illegal_op_0 : decode (one 0x00000000) = .error (.reservedOpcode 0) := by decide
theorem test_illegal_op_15 : decode (one 0x000000FF) = .error (.reservedOpcode 15) := by decide
-- V-I4 to V-I13
theorem test_illegal_reserved_bits :
    ([0x00000017, 0x00000107, 0x00010001, 0x00008011, 0x00800002, 0x80000002, 0xFFFFFF13, 0x00000104, 0x00000178,
      0x80000009].map fun w => match decode (one w) with | .error (.reservedBits _) => true | _ => false) =
      List.replicate 10 true := by decide
-- R53: W0 first, each word little-endian
theorem test_bytes :
    decodeBytes [0x78, 0, 0, 0, 5, 0, 0, 0, 0xFE, 0xFF, 0xFF, 0xFF] = .ok (.wrpt 5 (-2) 7) := by decide
theorem test_bytes_short : decodeBytes [0x07, 0, 0, 0] = .error (.notTwelveBytes 4) := by decide
theorem test_table_word : decodeTableWord 32 0x00008001 = some (.qgray 128) := by decide

/-! ### Single steps after reset (the defaults of R10) -/

/-- The response a step leaves on the port. -/
def answer (o : Host.Outcome State Fault Refusal) : Option Response :=
  match o with
  | .next t => t.resp
  | .fault _ => none
  | .refused _ => none

/-- A byte of memory after a step. -/
def byteAfter (o : Host.Outcome State Fault Refusal) (a : Nat) : Option Byte :=
  match o with
  | .next t => t.mem.read a
  | .fault _ => none
  | .refused _ => none

/-- One step on a command of low word `w0`, right after reset. -/
def first (w0 : Nat) : Host.Outcome State Fault Refusal := step (State.reset.withFetchWord 32 w0)

/-- One step on a WRPT of entry 5, over the launch contents 0x11 at both bytes of offset 0. -/
def plot (x y : Word32) : Host.Outcome State Fault Refusal :=
  step (launch Config.default [(0x0400, 0x11), (0xD800, 0x11)] [.command (Command.ofWords 0x00000058 x y)])

-- V-G2, V-G3: the 31/32 boundary
theorem test_qgray_31 : answer (first 0x00001F01) = some ⟨.ok, 0x000000⟩ := by decide
theorem test_qgray_32 : answer (first 0x00002001) = some ⟨.ok, 0x00000B⟩ := by decide
-- V-Q15-7, V-Q15-4
theorem test_q15_gray : answer (first 0x00108402) = some ⟨.ok, 0x00000B⟩ := by decide
theorem test_q15_green : answer (first 0x0003E002) = some ⟨.ok, 0x000001⟩ := by decide
-- V-Q24-14, V-Q24-15: the 127/128 boundary
theorem test_q24_128 : answer (first 0x7F808003) = some ⟨.ok, 0x000001⟩ := by decide
theorem test_q24_127 : answer (first 0x807F7F03) = some ⟨.ok, 0x00000F⟩ := by decide
-- V-T6 (the source's Blue), V-T14
theorem test_torgb_blue : answer (first 0x00000064) = some ⟨.ok, 0x0000AA⟩ := by decide
theorem test_torgb_14 : answer (first 0x000000E4) = some ⟨.ok, 0x0088FF⟩ := by decide
-- V-P9
theorem test_pack : answer (first 0x00000095) = some ⟨.ok, 0x000009⟩ := by decide
theorem test_unpack : answer (first 0x00000096) = some ⟨.ok, 0x000009⟩ := by decide
-- V-D1, V-L2
theorem test_dim : answer (first 0x00000007) = some ⟨.ok, 0x001928⟩ := by decide
theorem test_dim_ignores_other_words :
    answer (step (State.reset.present (Command.ofWords 0x00000007 0x12345678 0x9ABCDEF0))) =
      some ⟨.ok, 0x001928⟩ := by decide
-- V-W4
theorem test_wrpt_last_cell :
    (answer (plot 39 24), byteAfter (plot 39 24) 0xDBE7, byteAfter (plot 39 24) 0x07E7, byteAfter (plot 39 24) 0xD800) =
      (some ⟨.ok, 0⟩, some 0x05, some 0xA0, some 0x11) := by decide
-- V-W16: X + 40*Y would be offset 0
theorem test_wrpt_drop :
    (answer (plot 0xFFFFFFD8 1), byteAfter (plot 0xFFFFFFD8 1) 0xD800, byteAfter (plot 0xFFFFFFD8 1) 0x0400) =
      (some ⟨.ok, 0⟩, some 0x11, some 0x11) := by decide
-- V-C2
theorem test_clear_ends :
    (answer (first 0x69), byteAfter (first 0x69) 0xD800, byteAfter (first 0x69) 0xDBE7, byteAfter (first 0x69) 0x07E7) =
      (some ⟨.ok, 0⟩, some 0x06, some 0x06, some 0xA0) := by decide +kernel
theorem test_clear_stays_inside :
    (byteAfter (first 0x69) 0xD7FF, byteAfter (first 0x69) 0xDBE8, byteAfter (first 0x69) 0x03FF,
      byteAfter (first 0x69) 0x07E8) = (none, none, none, none) := by decide +kernel
-- V-I12: (ILLEGAL, 0) on the port, a refusal in a run (R95)
theorem test_illegal_answer :
    answer (serve (Command.ofWords 0x00000178 1 1) State.reset) = some ⟨.illegal, 0⟩ := by decide
-- R66: the two values of the status line
theorem test_status_line :
    ((answer (first 0x00000007)).map fun r => r.status.line) = some 0#1 ∧
      ((answer (serve (one 0) State.reset)).map fun r => r.status.line) = some 1#1 := by decide
theorem test_illegal_refused :
    (match step (State.reset.present (Command.ofWords 0x00000178 1 1)) with
      | .refused r => decide (r = .illegalCommand (.reservedBits 8) ⟨.illegal, 0⟩)
      | .next _ => false
      | .fault _ => false) = true := by decide
-- R73's list of EXPAND5_default
theorem test_expand5_default :
    Config.default.expandRows.toList =
      [0, 8, 16, 25, 33, 41, 49, 58, 66, 74, 82, 90, 99, 107, 115, 123, 132, 140, 148, 156, 165, 173, 181, 189, 197,
        206, 214, 222, 230, 239, 247, 255] := by decide
-- R40 with COLOR_HI_READ = anyValue: bits 7:4 are the draw
theorem test_color_hi_draw : colorRead .anyValue 0xC 0x05 = 0xC5 := by decide
-- R68: PLOTG 0, 0, 40 writes DarkGray (program P2's QGRAY 40 answers 0xB)
theorem test_plotg :
    byteAfter (runHost (SourceLine.plotg 0 0 40).expand State.reset) 0xD800 = some 0x0B := by decide

/-! ### Assembler (R67, R68) -/

theorem test_assemble_wrpt : assemble "WRPT -1, 0x18, Yellow" = some (.command (.wrpt (-1) 24 7)) := by decide
theorem test_assemble_luma_range : assemble "QGRAY 256" = none := by decide
theorem test_assemble_coordinate_range : assemble "WRPT 2147483648, 0, 1" = none := by decide
theorem test_assemble_wrmany :
    assemble "WRMANY (0,0,2), (40,0,4)" = some (.wrmany [(0, 0, 2), (40, 0, 4)]) := by decide
theorem test_assemble_plot15 : assemble "PLOT15 3, 4, 31, 0, 1" = some (.plot15 3 4 31 0 1) := by decide

/-! ### Witnesses: for each statement with hypotheses, values that meet all of them, at the boundaries of its clauses -/

theorem reset_admitted : State.reset.config.admitted = true := by decide

/-- A configuration with overlapping planes. -/
def overlapping : Config := { Config.default with colorBase := 0x0400 + 999 }

/-- The outcome is a next state. -/
def goesOn (o : Host.Outcome State Fault Refusal) : Bool :=
  match o with
  | .next _ => true
  | .fault _ => false
  | .refused _ => false

theorem goesOn_iff {o : Host.Outcome State Fault Refusal} : goesOn o = true ↔ ∃ t, o = .next t := by
  cases o <;> simp [goesOn]

/-- A state in which a command is presented. -/
def presenting (i : Instr) : State := State.reset.present (encode i)

theorem witness_GrayBandsFollowTheBandList :
    ([0, 31, 32, 63, 64, 95, 96, 127, 128, 255].map fun l : Nat => (band (BitVec.ofNat 8 l)).val) =
      [0, 0, 1, 1, 2, 2, 3, 3, 4, 4] := by decide
theorem witness_QgrayAnswersTheEntryOfItsBand :
    State.reset.config.admitted = true ∧ (one 0x00008001).w0 = 0#16 ++ 0x80#8 ++ 0#4 ++ 0x1#4 := by decide
theorem witness_Q15AnswersTheEntryOfItsLumaBand :
    State.reset.config.admitted = true ∧ (one 0x007C0002).w0 = 0#9 ++ 31#5 ++ 0#5 ++ 0#5 ++ 0#4 ++ 0x2#4 := by decide
theorem witness_Q24AnswersTheEntryOfItsLumaBand :
    State.reset.config.admitted = true ∧ (one 0xFF000003).w0 = 255#8 ++ 0#8 ++ 0#8 ++ 0#4 ++ 0x3#4 := by decide
theorem witness_ColoursDegradeToTheirLuma :
    State.reset.config.luma15 31 0 0 = State.reset.config.luma24 77 77 77 := by decide
theorem witness_TorgbAnswersTheRowOfTheEntry :
    State.reset.config.admitted = true ∧
      (∀ i j : Fin 16, State.reset.config.paletteRgb[i] = State.reset.config.paletteRgb[j] → i = j) ∧
      State.reset.config.paletteRgb[6] = ⟨0, 0, 170⟩ ∧
      ∃ t u, exec (.torgb 6) State.reset = .next t ∧ exec (.torgb 6) State.reset = .next u ∧ t.resp = u.resp :=
  have ⟨t, h⟩ := goesOn_iff.mp (show goesOn (exec (.torgb 6) State.reset) = true by decide)
  ⟨reset_admitted, by decide, by decide, t, t, h, h, rfl⟩
theorem witness_PackAnswersTheOrdinal : State.reset.config.admitted = true := reset_admitted
theorem witness_UnpackAnswersTheOrdinal : State.reset.config.admitted = true := reset_admitted
theorem witness_PackAndUnpackRoundTrip : State.reset.config.admitted = true := reset_admitted
theorem witness_DimAnswersFortyByTwentyFive : State.reset.config.admitted = true := reset_admitted
theorem witness_OffsetsNumberTheCells :
    inbounds 0 0 = true ∧ inbounds 39 24 = true ∧ offset 0 0 = 0 ∧ offset 39 24 = 999 := by decide
/-- The corner cells in bounds, and the four nearest points out of bounds (S5), in a state with launch contents. -/
theorem witness_WrptCommitsOrDropsItsPoint :
    State.reset.config.admitted = true ∧ State.reset.mem.wf ∧
      ((0 : Int) ≤ 0 ∧ (0 : Int) < 40 ∧ (0 : Int) ≤ 24 ∧ (24 : Int) < 25) ∧
      ((-1 : Int) < 0) ∧ (40 : Int) ≤ 40 ∧ (25 : Int) ≤ 25 := by decide
theorem witness_ClearFillsBothPlanes :
    State.reset.config.admitted = true ∧ ¬inColorPlane State.reset.config 0xD7FF ∧
      ¬inGlyphPlane State.reset.config 0xD7FF := by decide
theorem witness_ClearIsAThousandPairCommits :
    State.reset.mem.wf ∧ ∃ t, exec (.clear 6) State.reset = .next t :=
  ⟨by decide, goesOn_iff.mp (by decide +kernel)⟩
theorem witness_ClearEqualsAThousandWritePoints :
    State.reset.mem.wf ∧ ∃ t, exec (.clear 6) State.reset = .next t :=
  ⟨by decide, goesOn_iff.mp (by decide +kernel)⟩
/-- The outcome is a next state whose write port leaves address `a` alone. -/
def leavesAlone (a : Nat) (o : Host.Outcome State Fault Refusal) : Bool :=
  match o with
  | .next t => t.writePort.all fun p => p.1 != a
  | .fault _ => false
  | .refused _ => false
theorem leavesAlone_iff {a : Nat} {o : Host.Outcome State Fault Refusal} :
    leavesAlone a o = true ↔ ∃ t, o = .next t ∧ ∀ p ∈ t.writePort, p.1 ≠ a := by
  cases o <;> simp [leavesAlone]
/-- A write, a drop, a clear and a command that reaches no memory. -/
theorem witness_WriteFootprintOfEveryCommand :
    State.reset.mem.wf ∧ (∃ t, exec (.wrpt 39 24 1) State.reset = .next t ∧ ∀ p ∈ t.writePort, p.1 ≠ 0x0400) ∧
      (∃ t, exec (.wrpt 40 24 1) State.reset = .next t) ∧ (∃ t, exec (.clear 1) State.reset = .next t) ∧
      ∃ t, exec .dim State.reset = .next t :=
  ⟨by decide, leavesAlone_iff.mp (by decide), goesOn_iff.mp (by decide),
    goesOn_iff.mp (by decide +kernel), goesOn_iff.mp (by decide)⟩
theorem witness_StepNeverReadsAndWritesOnlyThePlanes :
    (presenting (.wrpt 3 4 1)).mem.wf ∧ (∃ t, step (presenting (.wrpt 3 4 1)) = .next t) ∧
      ¬inColorPlane Config.default 0x03FF ∧ ¬inGlyphPlane Config.default 0x03FF :=
  ⟨by decide, goesOn_iff.mp (by decide), by decide, by decide⟩
theorem witness_StepNeverChangesTheConfiguration :
    (∃ t, step (presenting (.clear 4)) = .next t) ∧ (∃ t, step State.reset = .next t) ∧
      ∃ t, step (State.reset.withInputs [.reset]) = .next t := 
  ⟨goesOn_iff.mp (by decide +kernel), goesOn_iff.mp (by decide), goesOn_iff.mp (by decide)⟩
theorem witness_EveryCommandIsIdempotentOnThePlanes :
    Memory.wf [(0x0400, 1)] ∧ State.reset.mem.wf ∧ ∃ t, exec (.wrpt 3 4 1) State.reset = .next t :=
  ⟨by decide, by decide, goesOn_iff.mp (by decide)⟩
theorem witness_EveryCommandCompletesWithOk : State.reset.config.admitted = true := reset_admitted
theorem witness_StepRunsTheDecodedCommand :
    (presenting (.pack 9)).inputs = .command (encode (.pack 9)) :: [] ∧ decode (encode (.pack 9)) = .ok (.pack 9) ∧
      (0x95 : Nat) < 4294967296 ∧ decode (BitVec.ofNat 96 0x95) = .ok (.pack 9) := by decide
theorem witness_IllegalCommandIsAnsweredAndRefused :
    State.reset.config.admitted = true ∧ (State.reset.present (one 0)).inputs = .command (one 0) :: [] ∧
      decode (one 0) = .error (.reservedOpcode 0) := by decide
theorem witness_EveryCommandGetsItsResponse : State.reset.config.admitted = true := reset_admitted
theorem witness_UnadmittedConfigurationIsRefused :
    ({ State.reset with config := overlapping } : State).config.admitted = false := by decide
theorem witness_AdmissionIsParameterValidity :
    Config.default.admitted = true ∧ overlapping.admitted = false := by decide
theorem witness_ResetBetweenCommandsKeepsThePlanes :
    State.reset.config.admitted = true ∧ (State.reset.withInputs [.reset]).inputs = .reset :: [] := by decide
theorem witness_RunsOutsideTheModelAreRefused :
    (State.reset.withInputs [.resetDuring 7]).inputs = .resetDuring 7 :: [] ∧
      (State.reset.withInputs [.secondHost 7]).inputs = .secondHost 7 :: [] ∧
      (State.reset.withInputs [.foreignPlaneWrite 0x0400 1]).inputs = .foreignPlaneWrite 0x0400 1 :: [] := by decide
theorem witness_IdleKeepsThePlanes : State.reset.config.admitted = true ∧ State.reset.inputs = [] := by decide
/-- An offset at each end, a cell with a value and one without, and both values of `COLOR_HI_READ`. -/
theorem witness_ObserverReadsThePlanes :
    (launch Config.default [(0xD800, 0x35)] []).config.admitted = true ∧
      (launch Config.default [(0xD800, 0x35)] []).color 0 = some 0x35 ∧
      (launch Config.default [(0xD800, 0x35)] []).color 999 = none ∧
      (launch { Config.default with colorHiRead := .anyValue } [(0xD800, 0x35)] []).config.admitted = true := by decide
theorem reset_good : State.reset.Good := by
  constructor <;> simp [State.reset]
theorem witness_EveryStepKeepsGood :
    (presenting (.wrpt 3 4 1)).Good ∧ ∃ t, step (presenting (.wrpt 3 4 1)) = .next t :=
  ⟨⟨reset_good.1, reset_good.2, reset_good.3, reset_good.4, reset_good.5⟩, goesOn_iff.mp (by decide)⟩
theorem witness_EveryStepKeepsPaired :
    (presenting (.wrpt 3 4 1)).mem.wf ∧ (presenting (.wrpt 3 4 1)).Paired ∧
      ∃ t, step (presenting (.wrpt 3 4 1)) = .next t :=
  ⟨by decide, fun _ _ => .inl ⟨rfl, rfl⟩, goesOn_iff.mp (by decide)⟩
/-- The source's scenario S8: Red, then Yellow, at (5,5); one cell committed and one not. -/
theorem witness_LastWriteWins :
    State.reset.config.admitted = true ∧ State.reset.mem.wf ∧
      (∀ i ∈ [Instr.wrpt 5 5 2, .wrpt 5 5 7], i.wf = true) ∧
      (State.reset.withInputs (presented [.wrpt 5 5 2, .wrpt 5 5 7])).inputs = presented [.wrpt 5 5 2, .wrpt 5 5 7] ∧
      lastCommit [.wrpt 5 5 2, .wrpt 5 5 7] 205 = some 7 ∧ lastCommit [.wrpt 5 5 2, .wrpt 5 5 7] 204 = none := by decide
theorem witness_GlyphAndColourAreObservedAsAPair :
    State.reset.config.admitted = true ∧ State.reset.mem.wf ∧ (∀ i ∈ [Instr.wrpt 39 24 2], i.wf = true) ∧
      (State.reset.withInputs (presented ([.wrpt 39 24 2] ++ [.dim]))).inputs = presented ([.wrpt 39 24 2] ++ [.dim]) ∧
      lastCommit [.wrpt 39 24 2] 999 = some 2 := by decide
theorem witness_WrmanyWritesItsPointsInOrder :
    State.reset.config.admitted = true ∧ State.reset.mem.wf ∧
      (∀ p ∈ [((1 : Int), (0 : Int), (3 : Entry)), (40, 0, 4), (1, 0, 5)], inS32 p.1 = true ∧ inS32 p.2.1 = true) := by
  decide
theorem witness_PlotWritesTheQuantizedColour :
    State.reset.config.admitted = true ∧ inS32 2147483647 = true ∧ inS32 (-2147483648) = true := by decide
theorem witness_DecodeOfEncodeIsTheInstruction : (Instr.wrpt (-2147483648) 2147483647 15).wf = true := by decide
theorem witness_EncodeOfDecodeIsTheCommand :
    decode (Command.ofWords 0x00000058 0xFFFFFFFF 0) = .ok (.wrpt (-1) 0 5) := by decide
theorem no_row {w : Word32} (h : (opcodeRows.all fun row => w &&& row.2 != row.1) = true) :
    ∀ row ∈ opcodeRows, w &&& row.2 ≠ row.1 := fun row hr => by simpa using List.all_eq_true.mp h row hr
theorem witness_DecodesAsTheUniqueMatchingRow :
    (one 0xFFFFFF03).w0 &&& 0x000000FF#32 = 0x00000003#32 ∧ ∀ row ∈ opcodeRows, (one 0xA).w0 &&& row.2 ≠ row.1 :=
  ⟨by decide, no_row (by decide)⟩
/-- Opcodes 0 and 10 of the first clause, and 1 and 9 with a reserved bit set of the second. -/
theorem witness_ReservedEncodingsAreIllegal :
    (one 0).w0.extractLsb' 0 4 = 0 ∧ 10 ≤ ((one 0xA).w0.extractLsb' 0 4).toNat ∧
      (1 ≤ ((one 0x11).w0.extractLsb' 0 4).toNat ∧ ∀ row ∈ opcodeRows, (one 0x11).w0 &&& row.2 ≠ row.1) ∧
      (((one 0x109).w0.extractLsb' 0 4).toNat ≤ 9 ∧ ∀ row ∈ opcodeRows, (one 0x109).w0 &&& row.2 ≠ row.1) :=
  ⟨by decide, by decide, ⟨by decide, no_row (by decide)⟩, by decide, no_row (by decide)⟩
theorem witness_OtherWordsMatterOnlyToWrpt :
    (Command.ofWords 7 0x12345678 0x9ABCDEF0).w0 = (one 7).w0 ∧ (one 7).w0.extractLsb' 0 4 ≠ 0x8#4 ∧
      decode (one 0x58) = .ok (.wrpt 0 0 5) := by decide
theorem witness_AssembledLinesAreWellFormed :
    assemble "WRPT -2147483648, 2147483647, 15" = some (.command (.wrpt (-2147483648) 2147483647 15)) := by decide

end Sys2Proof.Tests
end

