-- ==== Sys2Proof/Proofs/Scope.lean ====
section
/-! The parameters and their validity (spec/00_scope.md R10, R11): the OPEN functions range over every total function,
the admission check decides R11 with R30, and nothing runs where it fails. -/

namespace Sys2Proof

/-! ### The OPEN functions as data (R10, R72, R73) -/

/-- Every colour of 8-bit channels. -/
def everyColour : List Rgb := (FinEnum.toList (Byte × Byte × Byte)).map fun p => ⟨p.1, p.2.1, p.2.2⟩

theorem mem_everyColour (k : Rgb) : k ∈ everyColour :=
  List.mem_map.mpr ⟨(k.r, k.g, k.b), FinEnum.mem_toList _, rfl⟩

/-- The rows of `LUMA24` that list every colour with its value under `f`. -/
def lumaTable (f : Byte → Byte → Byte → Byte) : List (Rgb × Byte) :=
  everyColour.map fun k => (k, f k.r k.g k.b)

/-- The values of `EXPAND5` that are those of `f`. -/
def expandTable (f : Chan5 → Byte) : Vector Byte 32 := Vector.ofFn fun i => f (BitVec.ofFin i)

theorem lookup_lumaTable (f : Byte → Byte → Byte → Byte) (r g b : Byte) :
    (lumaTable f).lookup ⟨r, g, b⟩ = some (f r g b) :=
  List.lookup_graph (fun k : Rgb => f k.r k.g k.b) (mem_everyColour ⟨r, g, b⟩)

/-- A row that lists a colour decides its luma (R72). -/
theorem Config.luma24_of_lookup (c : Config) {rows : List (Rgb × Byte)} {r g b l : Byte}
    (h : rows.lookup ⟨r, g, b⟩ = some l) : { c with lumaRows := rows }.luma24 r g b = l := by
  simp [Config.luma24, h]

theorem Config.luma24_lumaTable (c : Config) (f : Byte → Byte → Byte → Byte) (r g b : Byte) :
    { c with lumaRows := lumaTable f }.luma24 r g b = f r g b :=
  c.luma24_of_lookup (lookup_lumaTable f r g b)

theorem Config.expand5_expandTable (c : Config) (f : Chan5 → Byte) (v : Chan5) :
    { c with expandRows := expandTable f }.expand5 v = f v := by
  simp [Config.expand5, expandTable]

/-- Admission does not read `LUMA24` (R11). -/
theorem Config.admitted_withLumaRows (c : Config) (rows : List (Rgb × Byte)) :
    { c with lumaRows := rows }.admitted = c.admitted := rfl

/-- Admission does not read `EXPAND5` (R11). -/
theorem Config.admitted_withExpandRows (c : Config) (rows : Vector Byte 32) :
    { c with expandRows := rows }.admitted = c.admitted := rfl

/-- Settles O6: the table that lists every argument with its value. -/
theorem everyLumaAndExpansionIsAConfiguration : Obligations.EveryLumaAndExpansionIsAConfiguration :=
  ⟨fun c f => ⟨lumaTable f, c.admitted_withLumaRows _, c.luma24_lumaTable f⟩,
   fun c f => ⟨expandTable f, c.admitted_withExpandRows _, c.expand5_expandTable f⟩⟩

end Sys2Proof

namespace Sys2Proof.Machine

/-! ### Admission is parameter validity (R11, R30) -/

/-- Two planes share no address exactly when one ends before the other begins (R11): otherwise the later base is an
address of both. -/
theorem planes_disjoint_iff (c : Config) :
    (∀ a, ¬(inColorPlane c a ∧ inGlyphPlane c a)) ↔
      c.glyphBase + 999 < c.colorBase ∨ c.colorBase + 999 < c.glyphBase := by
  constructor
  · intro hnone
    have hlater := hnone (max c.colorBase c.glyphBase)
    simp only [inColorPlane, inGlyphPlane] at hlater
    omega
  · rintro hapart a ⟨hcolor, hglyph⟩
    omega

/-- The rows of a table are pairwise distinct exactly when the table is one-to-one in its index. -/
theorem nodup_toList_iff {α : Type} {n : Nat} (v : Vector α n) :
    v.toList.Nodup ↔ ∀ i j : Fin n, v[i] = v[j] → i = j := by
  have hrows : v.toList = List.ofFn fun i : Fin n => v[i] := by
    rw [← Vector.toList_ofFn]
    exact congrArg Vector.toList (Vector.ext fun i hi => by simp)
  rw [hrows, List.nodup_ofFn]
  rfl

/-- Settles O28: the condition on the planes' ranges is their disjointness, that on the list of rows is injectivity of
the palette. -/
theorem admissionIsParameterValidity : Obligations.AdmissionIsParameterValidity := by
  intro c
  rw [admitted_iff, planes_disjoint_iff, nodup_toList_iff]
  rfl

/-! ### Nothing runs in a configuration that is not admitted (R11) -/

section unadmitted
variable {s t : State} (h : s.config.admitted = false)
include h

/-- The gate refuses a configuration that is not admitted. -/
theorem proceed_of_not_admitted : proceed s t = .refused .configurationNotAdmitted := by
  simp [proceed, h]

theorem complete_of_not_admitted (m : Memory) (ws : List Host.Cell) (v : BitVec 24) :
    complete s m ws v = .refused .configurationNotAdmitted :=
  proceed_of_not_admitted h

theorem respond_of_not_admitted (v : BitVec 24) : respond s v = .refused .configurationNotAdmitted :=
  complete_of_not_admitted h _ _ _

/-- Every command ends in the gate, so none runs. -/
theorem exec_of_not_admitted (i : Instr) : exec i s = .refused .configurationNotAdmitted := by
  cases i with
  | wrpt x y e => exact complete_of_not_admitted h _ _ _
  | clear e => exact complete_of_not_admitted h _ _ _
  | _ => exact respond_of_not_admitted h _

/-- Idling and reset pass the gate and a command is executed, so no step answers a next state. -/
theorem step_ne_next_of_not_admitted : step s ≠ .next t := by
  intro hstep
  rcases step_next hstep with ⟨ha, -, -⟩ | ⟨rest, ha, -, -⟩ | ⟨c, i, rest, -, -, hexec⟩
  · simp [h] at ha
  · simp [h] at ha
  · have hrefused : exec i (s.withInputs rest) = .refused .configurationNotAdmitted :=
      exec_of_not_admitted (s := s.withInputs rest) h i
    rw [hrefused] at hexec
    nomatch hexec

end unadmitted

/-- Settles O27: the gate refuses every command, and every step that answers passes the gate. -/
theorem unadmittedConfigurationIsRefused : Obligations.UnadmittedConfigurationIsRefused :=
  fun _ h => ⟨exec_of_not_admitted h, fun _ => step_ne_next_of_not_admitted h⟩

end Sys2Proof.Machine
end


/-! The state (spec/10_state.md R27, R33): what a launch holds (R27, R111), and the state right after reset, which
knows no byte of either plane and serves every command (R107, R108). -/

namespace Sys2Proof.Machine

/-! ### Launch contents (R27, R111) -/

/-- A memory reads at an address as the first cell it lists there. -/
theorem Memory.read_eq_find? (m : Memory) (a : Nat) :
    m.read a = (m.find? fun p => p.1 == a).map Prod.snd := by
  induction m with
  | nil => rfl
  | cons p m ih =>
    rw [Memory.read_cons]
    by_cases hp : p.1 = a
    · rw [if_pos hp, List.find?_cons_of_pos (by simpa using hp), Option.map_some]
    · rw [if_neg hp, List.find?_cons_of_neg (by simpa using hp), ih]

section launch
variable (c : Config) (contents : List Host.Cell) (inputs : List Input)

@[simp] theorem launch_config : (launch c contents inputs).config = c := rfl
@[simp] theorem launch_inputs : (launch c contents inputs).inputs = inputs := rfl
@[simp] theorem launch_mem : (launch c contents inputs).mem = Memory.writeAll [] contents := rfl

/-- A launch lists its contents into an empty memory, which is in its form. -/
theorem launch_mem_wf : (launch c contents inputs).mem.wf :=
  Memory.writeAll_wf List.Pairwise.nil contents

/-- What a launched memory reads is what its contents say, the last listed first. -/
theorem launch_read (a : Nat) :
    (launch c contents inputs).mem.read a = Memory.read contents.reverse a := by
  rw [launch_mem, Memory.read_writeAll List.Pairwise.nil, Memory.read_nil, Option.or_none]

end launch

/-- Settles O33: the launch's writes are read back last first, and a read finds the first cell listed. -/
theorem launchContentsAreAnyBytes : Obligations.LaunchContentsAreAnyBytes := fun c contents inputs =>
  ⟨launch_config c contents inputs, launch_inputs c contents inputs, launch_mem_wf c contents inputs, fun a =>
    (launch_read c contents inputs a).trans (Memory.read_eq_find? contents.reverse a)⟩

/-! ### Commands in an admitted configuration (R94) -/

section admitted
variable {s : State} (h : s.config.admitted = true)
include h

theorem complete_of_admitted (m : Memory) (ws : List Host.Cell) (v : BitVec 24) :
    complete s m ws v = .next (s.served m ws ⟨.ok, v⟩) :=
  proceed_of_admitted h

theorem respond_of_admitted (v : BitVec 24) : respond s v = .next (s.served s.mem [] ⟨.ok, v⟩) :=
  complete_of_admitted h _ _ _

/-- Every command ends in a completion, so every one runs. -/
theorem exec_of_admitted (i : Instr) : ∃ t, exec i s = .next t := by
  cases i with
  | wrpt x y e => exact ⟨_, complete_of_admitted h _ _ _⟩
  | clear e => exact ⟨_, complete_of_admitted h _ _ _⟩
  | _ => exact ⟨_, respond_of_admitted h _⟩

end admitted

/-! ### The state right after reset (R33, R107, R108) -/

@[simp] theorem State.reset_glyph (off : Nat) : State.reset.glyph off = none := Memory.read_nil _

@[simp] theorem State.reset_color (off : Nat) : State.reset.color off = none := Memory.read_nil _

/-- Settles O29: reset lists no byte and puts nothing on the ports, and its configuration, the default one, is
admitted. -/
theorem resetAssumesNothingAndAcceptsACommand : Obligations.ResetAssumesNothingAndAcceptsACommand := by
  have hadmitted : State.reset.config.admitted = true := by decide
  exact ⟨rfl, fun off => ⟨State.reset_glyph off, State.reset_color off⟩, rfl, rfl, exec_of_admitted hadmitted⟩

/-- Settles O37: at every offset neither byte of the pair has a value. -/
theorem pairedHoldsAtReset : Obligations.PairedHoldsAtReset :=
  fun off _ => .inl ⟨State.reset_glyph off, State.reset_color off⟩

end Sys2Proof.Machine


/-! The memory (spec/20_memory.md): the laws of repeated writes (R44), the writes every command performs and the pair of
bytes they leave at an offset (R37 to R39, R43), what every step keeps, and the observer's reads (R40). -/

namespace Sys2Proof.Machine

/-! ### Reads and repeated writes (R44) -/

/-- A memory that lists one value alone for an address reads as that value there. -/
theorem Memory.read_eq_some_of_mem {m : Memory} {a : Nat} {v : Byte} (hlisted : (a, v) ∈ m)
    (honly : ∀ w, (a, w) ∈ m → w = v) : m.read a = some v := by
  cases hread : m.read a with
  | some w => rw [honly w (Memory.mem_of_read hread)]
  | none =>
    rw [Memory.read_eq_find?, Option.map_eq_none_iff, List.find?_eq_none] at hread
    simpa using hread (a, v) hlisted

/-- Performing a list of writes a second time changes nothing: each address they reach already holds the last value
they give it. -/
theorem Memory.writeAll_idem {m : Memory} (hm : m.wf) (ws : List Host.Cell) :
    (m.writeAll ws).writeAll ws = m.writeAll ws := by
  have hm' := Memory.writeAll_wf hm ws
  refine Memory.ext_read (Memory.writeAll_wf hm' ws) hm' fun a => ?_
  rw [Memory.read_writeAll hm', Memory.read_writeAll hm]
  cases Memory.read ws.reverse a <;> rfl

/-- A list of writes leaves every address it does not name as it was. -/
theorem Memory.read_writeAll_of_forall_ne {m : Memory} (hm : m.wf) {ws : List Host.Cell} {a : Nat}
    (hws : ∀ p ∈ ws, p.1 ≠ a) : (m.writeAll ws).read a = m.read a := by
  rw [Memory.read_writeAll hm, Memory.read_eq_none fun p hp => hws p (List.mem_reverse.mp hp), Option.none_or]

/-! ### The planes of an admitted configuration (R11, R35, R36) -/

theorem inColorPlane_base_add {c : Config} {off : Nat} (hoff : off ≤ 999) : inColorPlane c (c.colorBase + off) := by
  omega

theorem inGlyphPlane_base_add {c : Config} {off : Nat} (hoff : off ≤ 999) : inGlyphPlane c (c.glyphBase + off) := by
  omega

theorem not_inGlyphPlane_of_inColorPlane {c : Config} (hc : c.admitted = true) {a : Nat} (ha : inColorPlane c a) :
    ¬inGlyphPlane c a := by
  obtain ⟨-, -, hapart, -, -⟩ := admitted_iff.mp hc
  exact fun hg => (planes_disjoint_iff c).mpr hapart a ⟨ha, hg⟩

/-! ### The writes of a command (R37, R38, R39, R92) -/

/-- The colour byte of a pair commit is a write RDQ may issue (R37). -/
theorem planeWrite_color (c : Config) {off : Nat} (hoff : off ≤ 999) (e : Entry) :
    planeWrite c (c.colorBase + off, e.setWidth 8) := by
  refine .inl ⟨inColorPlane_base_add hoff, ?_⟩
  have := e.isLt
  simp only [BitVec.toNat_setWidth]
  omega

/-- The glyph byte of a pair commit is a write RDQ may issue (R38). -/
theorem planeWrite_glyph (c : Config) {off : Nat} (hoff : off ≤ 999) :
    planeWrite c (c.glyphBase + off, c.filledGlyph) :=
  .inr ⟨inGlyphPlane_base_add hoff, rfl⟩

theorem planeWrite_of_mem_pointWrites {c : Config} {x y : Int} {e : Entry} {p : Host.Cell}
    (hp : p ∈ pointWrites c x y e) : planeWrite c p := by
  cases hin : inbounds x y with
  | false => simp [pointWrites_outside hin] at hp
  | true =>
    have hoff : offset x y ≤ 999 := Nat.le_of_lt_succ (offset_lt hin)
    rw [pointWrites_inbounds hin, List.mem_pair] at hp
    rcases hp with rfl | rfl
    · exact planeWrite_color c hoff e
    · exact planeWrite_glyph c hoff

theorem planeWrite_of_mem_clearWrites {c : Config} {e : Entry} {p : Host.Cell} (hp : p ∈ clearWrites c e) :
    planeWrite c p := by
  obtain ⟨off, hoff, rfl | rfl⟩ := mem_clearWrites.mp hp
  · exact planeWrite_color c (Nat.le_of_lt_succ hoff) e
  · exact planeWrite_glyph c (Nat.le_of_lt_succ hoff)

/-- A write point issues the two writes of its pair commit, or none (R92). -/
theorem pointWrites_length (c : Config) (x y : Int) (e : Entry) :
    (pointWrites c x y e).length = 0 ∨ (pointWrites c x y e).length = 2 := by
  cases hin : inbounds x y with
  | false => exact .inl (by rw [pointWrites_outside hin, List.length_nil])
  | true => exact .inr (by rw [pointWrites_inbounds hin]; rfl)

/-- The last value CLEAR writes at an address. -/
theorem read_reverse_clearWrites {c : Config} (hc : c.admitted = true) (e : Entry) (a : Nat) :
    Memory.read (clearWrites c e).reverse a =
      if inGlyphPlane c a then some c.filledGlyph
      else if inColorPlane c a then some (e.setWidth 8)
      else none := by
  have hlisted (w : Byte) : (a, w) ∈ (clearWrites c e).reverse ↔
      (inColorPlane c a ∧ w = e.setWidth 8) ∨ (inGlyphPlane c a ∧ w = c.filledGlyph) := by
    rw [List.mem_reverse, mem_clearWrites]
    constructor
    · rintro ⟨off, hoff, hp | hp⟩ <;> obtain ⟨rfl, rfl⟩ := Prod.mk.inj hp
      · exact .inl ⟨inColorPlane_base_add (Nat.le_of_lt_succ hoff), rfl⟩
      · exact .inr ⟨inGlyphPlane_base_add (Nat.le_of_lt_succ hoff), rfl⟩
    · rintro (⟨ha, rfl⟩ | ⟨ha, rfl⟩)
      · exact ⟨a - c.colorBase, by omega, .inl (Prod.ext (by simp only; omega) rfl)⟩
      · exact ⟨a - c.glyphBase, by omega, .inr (Prod.ext (by simp only; omega) rfl)⟩
  split
  · next hg =>
    have hcol : ¬inColorPlane c a := fun h => not_inGlyphPlane_of_inColorPlane hc h hg
    refine Memory.read_eq_some_of_mem ((hlisted _).mpr (.inr ⟨hg, rfl⟩)) fun w hw => ?_
    exact ((hlisted w).mp hw).elim (fun h => absurd h.1 hcol) And.right
  · next hg =>
    split
    · next hcol =>
      refine Memory.read_eq_some_of_mem ((hlisted _).mpr (.inl ⟨hcol, rfl⟩)) fun w hw => ?_
      exact ((hlisted w).mp hw).elim And.right fun h => absurd h.1 hg
    · next hcol =>
      refine Memory.read_eq_none fun p hp hpa => ?_
      subst hpa
      exact ((hlisted p.2).mp hp).elim (fun h => hcol h.1) fun h => hg h.1

/-- The block fills of CLEAR are its writes performed in order (R88). -/
theorem clearMemory_eq_writeAll {c : Config} (hc : c.admitted = true) {m : Memory} (hm : m.wf) (e : Entry) :
    clearMemory c e m = m.writeAll (clearWrites c e) := by
  refine Memory.ext_read (clearMemory_wf hm) (Memory.writeAll_wf hm _) fun a => ?_
  rw [clearMemory_read, Memory.read_writeAll hm, read_reverse_clearWrites hc]
  split
  · rfl
  · split <;> rfl

/-! ### What one command does -/

section exec
variable {i : Instr} {s t : State} (h : exec i s = .next t)
include h

theorem exec_admitted : s.config.admitted = true := (exec_next h).1

theorem exec_config : t.config = s.config := by
  obtain ⟨-, m, ws, v, rfl, -⟩ := exec_next h
  rfl

/-- A command that runs answers OK (R66). -/
theorem exec_resp : ∃ v, t.resp = some ⟨.ok, v⟩ := by
  obtain ⟨-, m, ws, v, rfl, -⟩ := exec_next h
  exact ⟨v, rfl⟩

/-- The memory after a command is the memory before it with the issued writes performed, in the order issued (R47). -/
theorem exec_mem (hm : s.mem.wf) : t.mem = s.mem.writeAll t.writePort := by
  obtain ⟨hc, m, ws, v, rfl, ⟨rfl, rfl⟩ | ⟨x, y, e, -, rfl, rfl⟩ | ⟨e, -, rfl, rfl⟩⟩ := exec_next h
  · rfl
  · rfl
  · exact clearMemory_eq_writeAll hc hm e

theorem exec_mem_wf (hm : s.mem.wf) : t.mem.wf :=
  exec_mem h hm ▸ Memory.writeAll_wf hm _

/-- Every write a command issues is one RDQ may issue (R39). -/
theorem exec_planeWrite : ∀ p ∈ t.writePort, planeWrite s.config p := by
  obtain ⟨-, m, ws, v, rfl, ⟨-, rfl⟩ | ⟨x, y, e, -, rfl, -⟩ | ⟨e, -, rfl, -⟩⟩ := exec_next h
  · exact fun p hp => absurd hp List.not_mem_nil
  · exact fun p hp => planeWrite_of_mem_pointWrites hp
  · exact fun p hp => planeWrite_of_mem_clearWrites hp

/-- A command issues no write, the two of one pair commit, or the 2000 of CLEAR (R92). -/
theorem exec_writePort_length :
    t.writePort.length = 0 ∨ t.writePort.length = 2 ∨ t.writePort.length = 2000 := by
  obtain ⟨-, m, ws, v, rfl, ⟨-, rfl⟩ | ⟨x, y, e, -, rfl, -⟩ | ⟨e, -, rfl, -⟩⟩ := exec_next h
  · exact .inl rfl
  · exact (pointWrites_length s.config x y e).imp_right .inl
  · exact .inr (.inr clearWrites_length)

/-- What a command answers and writes is a function of its operands and the configuration alone (R39, R116). -/
theorem exec_resp_writePort_of_config {s' t' : State} (hconfig : s.config = s'.config) (h' : exec i s' = .next t') :
    t.resp = t'.resp ∧ t.writePort = t'.writePort := by
  cases i with
  | wrpt x y e =>
    obtain ⟨-, rfl⟩ := complete_next_iff.mp h
    obtain ⟨-, rfl⟩ := complete_next_iff.mp h'
    simp [hconfig]
  | clear e =>
    obtain ⟨-, rfl⟩ := complete_next_iff.mp h
    obtain ⟨-, rfl⟩ := complete_next_iff.mp h'
    simp [hconfig]
  | _ =>
    obtain ⟨-, rfl⟩ := respond_next_iff.mp h
    obtain ⟨-, rfl⟩ := respond_next_iff.mp h'
    simp [hconfig]

/-- A command leaves every byte outside the planes (R39). -/
theorem exec_read_outside (hm : s.mem.wf) {a : Nat} (hcol : ¬inColorPlane s.config a)
    (hg : ¬inGlyphPlane s.config a) : t.mem.read a = s.mem.read a := by
  rw [exec_mem h hm]
  refine Memory.read_writeAll_of_forall_ne hm fun p hp hpa => ?_
  subst hpa
  exact (exec_planeWrite h p hp).elim (fun hw => hcol hw.1) fun hw => hg hw.1

end exec

/-! ### The pair of bytes at an offset (R43, R85) -/

/-- The entry WRPT commits at an offset, by the model's bounds check and offset (R83, R84). -/
theorem commitAt_wrpt (x y : Int) (e : Entry) (off : Nat) :
    commitAt (.wrpt x y e) off = if inbounds x y = true ∧ offset x y = off then some e else none := by
  refine if_congr ?_ rfl rfl
  rw [inbounds_iff]
  constructor
  · rintro ⟨hx, hx', hy, hy', hoff⟩
    have := offset_cast hx hy
    exact ⟨⟨hx, hx', hy, hy'⟩, by omega⟩
  · rintro ⟨⟨hx, hx', hy, hy'⟩, rfl⟩
    exact ⟨hx, hx', hy, hy', (offset_cast hx hy).symm⟩

/-- A pair commit reaches both bytes of its own offset and no byte of another: the planes are disjoint (R11). -/
theorem Memory.read_writeAll_pairCommit {c : Config} (hc : c.admitted = true) {m : Memory} (hm : m.wf) {k off : Nat}
    (hk : k ≤ 999) (hoff : off ≤ 999) (e : Entry) :
    (m.writeAll (pairCommit c k e)).read (c.colorBase + off) =
      (if k = off then some (e.setWidth 8) else m.read (c.colorBase + off)) ∧
    (m.writeAll (pairCommit c k e)).read (c.glyphBase + off) =
      (if k = off then some c.filledGlyph else m.read (c.glyphBase + off)) := by
  obtain ⟨-, -, hapart, -, -⟩ := admitted_iff.mp hc
  have hcolor : c.glyphBase + k ≠ c.colorBase + off := by omega
  have hglyph : c.colorBase + k ≠ c.glyphBase + off := by omega
  simp [pairCommit, Memory.read_write (Memory.write_wf hm _ _), Memory.read_write hm, hcolor, hglyph]

/-- After a command the pair at an offset holds the entry committed there and the filled block, and where the command
commits none, both bytes are as they were. -/
theorem exec_pair {i : Instr} {s t : State} (h : exec i s = .next t) (hm : s.mem.wf) {off : Nat} (hoff : off ≤ 999) :
    t.color off = ((commitAt i off).map (·.setWidth 8)).or (s.color off) ∧
    t.glyph off = ((commitAt i off).map fun _ => s.config.filledGlyph).or (s.glyph off) := by
  have hc := exec_admitted h
  have hapart : ¬inGlyphPlane s.config (s.config.colorBase + off) :=
    not_inGlyphPlane_of_inColorPlane hc (inColorPlane_base_add hoff)
  cases i with
  | wrpt x y e =>
    obtain ⟨-, rfl⟩ := complete_next_iff.mp h
    rw [commitAt_wrpt]
    cases hin : inbounds x y with
    | false => simp [State.color, State.glyph, pointWrites_outside hin]
    | true =>
      have hcommit := Memory.read_writeAll_pairCommit hc hm (Nat.le_of_lt_succ (offset_lt hin)) hoff e
      by_cases hxy : offset x y = off <;>
        simpa [State.color, State.glyph, pointWrites, hin, hxy] using hcommit
  | clear e =>
    obtain ⟨-, rfl⟩ := complete_next_iff.mp h
    simp [State.color, State.glyph, clearMemory_read, commitAt, hapart, hoff]
  | _ =>
    obtain ⟨-, rfl⟩ := respond_next_iff.mp h
    exact ⟨rfl, rfl⟩

/-! ### What one step does -/

theorem step_of_inputs_nil {s : State} (hi : s.inputs = []) : step s = proceed s s.quiet := by
  simp only [step, takeInput, hi, idle]

theorem step_of_inputs_cons {s : State} {input : Input} {rest : List Input} (hi : s.inputs = input :: rest) :
    step s = accept input (s.withInputs rest) := by
  simp only [step, takeInput, hi]

/-- A run goes on after a command exactly when the command is legal and its instruction runs (R63, R95). -/
theorem runCommand_next_iff {c : Command} {s t : State} :
    runCommand c s = .next t ↔ ∃ i, decode c = .ok i ∧ exec i s = .next t := by
  unfold runCommand
  cases decode c <;> simp

/-- What an input makes RDQ answer and write is a function of the input and the configuration alone (R39). -/
theorem accept_resp_writePort_of_config {input : Input} {s t s' t' : State} (hconfig : s.config = s'.config)
    (h : accept input s = .next t) (h' : accept input s' = .next t') :
    t.resp = t'.resp ∧ t.writePort = t'.writePort := by
  cases input with
  | command c =>
    obtain ⟨i, hd, hexec⟩ := runCommand_next_iff.mp h
    obtain ⟨j, hd', hexec'⟩ := runCommand_next_iff.mp h'
    obtain rfl : i = j := Except.ok.inj (hd.symm.trans hd')
    exact exec_resp_writePort_of_config hexec hconfig hexec'
  | reset =>
    obtain ⟨-, rfl⟩ := proceed_next_iff.mp h
    obtain ⟨-, rfl⟩ := proceed_next_iff.mp h'
    exact ⟨rfl, rfl⟩
  | resetDuring c => nomatch h
  | secondHost c => nomatch h
  | foreignPlaneWrite a v => nomatch h

/-- A step that answers a next state either issues nothing and keeps the memory, or is one command's execution. -/
theorem step_quiet_or_exec {s t : State} (h : step s = .next t) :
    (∃ rest, t = (s.withInputs rest).quiet) ∨ ∃ i rest, exec i (s.withInputs rest) = .next t := by
  rcases step_next h with ⟨-, -, rfl⟩ | ⟨rest, -, -, rfl⟩ | ⟨c, i, rest, -, -, hexec⟩
  · exact .inl ⟨s.inputs, rfl⟩
  · exact .inl ⟨rest, rfl⟩
  · exact .inr ⟨i, rest, hexec⟩

/-- Settles O35: reset lists no byte and puts nothing on the ports. -/
theorem goodHoldsAtReset : Obligations.GoodHoldsAtReset where
  memory_form := List.Pairwise.nil
  memory_in_space := fun _ hp => absurd hp List.not_mem_nil
  writes_in_planes := fun _ hp => absurd hp List.not_mem_nil
  write_count := .inl rfl
  response_ok := nofun

/-- Settles O36: an idle step or a reset issues nothing, and a command's memory is the old one with its own writes,
which lie in the planes, performed. -/
theorem everyStepKeepsGood : Obligations.EveryStepKeepsGood := by
  intro s t hs hstep
  rcases step_quiet_or_exec hstep with ⟨rest, rfl⟩ | ⟨i, rest, hexec⟩
  · exact {
      memory_form := hs.memory_form
      memory_in_space := hs.memory_in_space
      writes_in_planes := fun p hp => absurd hp List.not_mem_nil
      write_count := .inl rfl
      response_ok := nofun }
  · have hm : (s.withInputs rest).mem.wf := hs.memory_form
    have hc : s.config.admitted = true := by simpa using exec_admitted hexec
    have hconfig : t.config = s.config := by simpa using exec_config hexec
    exact {
      memory_form := exec_mem_wf hexec hm
      memory_in_space := fun p hp => by
        rw [hconfig]
        rw [exec_mem hexec hm] at hp
        rcases Memory.mem_writeAll hp with hp | hp
        · exact planeWrite_in_space hc (exec_planeWrite hexec p hp)
        · exact hs.memory_in_space p hp
      writes_in_planes := fun p hp => hconfig ▸ exec_planeWrite hexec p hp
      write_count := exec_writePort_length hexec
      response_ok := fun r hr => by
        obtain ⟨v, hv⟩ := exec_resp hexec
        rw [hv] at hr
        cases hr
        rfl }

/-- Settles O38: where the command commits a pair both bytes are new, and elsewhere both are as they were. -/
theorem everyStepKeepsPaired : Obligations.EveryStepKeepsPaired := by
  intro s t hm hs hstep off hoff
  rcases step_quiet_or_exec hstep with ⟨rest, rfl⟩ | ⟨i, rest, hexec⟩
  · exact hs off hoff
  · obtain ⟨hcolor, hglyph⟩ := exec_pair hexec hm hoff
    rw [hcolor, hglyph, exec_config hexec]
    cases commitAt i off with
    | some e => exact .inr ⟨rfl, e, rfl⟩
    | none => exact hs off hoff

/-- Settles O20: equal inputs make both states run the same command, whose answer and writes depend on the
configuration alone; and a command writes only into the planes. -/
theorem stepNeverReadsAndWritesOnlyThePlanes : Obligations.StepNeverReadsAndWritesOnlyThePlanes := by
  refine ⟨fun s s' t t' hconfig hinputs hstep hstep' => ?_, fun s t hm hstep => ?_⟩
  · cases hi : s.inputs with
    | nil =>
      obtain ⟨-, rfl⟩ := proceed_next_iff.mp (step_of_inputs_nil hi ▸ hstep)
      obtain ⟨-, rfl⟩ := proceed_next_iff.mp (step_of_inputs_nil (hinputs ▸ hi) ▸ hstep')
      exact ⟨rfl, rfl⟩
    | cons input rest =>
      rw [step_of_inputs_cons hi] at hstep
      rw [step_of_inputs_cons (hinputs ▸ hi)] at hstep'
      exact accept_resp_writePort_of_config (by simpa using hconfig) hstep hstep'
  · rcases step_quiet_or_exec hstep with ⟨rest, rfl⟩ | ⟨i, rest, hexec⟩
    · exact ⟨fun p hp => absurd hp List.not_mem_nil, fun _ _ _ => rfl⟩
    · exact ⟨by simpa using exec_planeWrite hexec, fun a hcol hg => exec_read_outside hexec hm hcol hg⟩

/-- Settles O22: a second run issues the writes of the first, and a list of writes performed twice is performed once. -/
theorem everyCommandIsIdempotentOnThePlanes : Obligations.EveryCommandIsIdempotentOnThePlanes := by
  refine ⟨fun m a v hm => ⟨?_, fun b hb => ?_, Memory.writeAll_idem hm [(a, v)]⟩, fun i s t hm hexec => ?_⟩
  · rw [Memory.read_write hm, if_pos rfl]
  · rw [Memory.read_write hm, if_neg hb.symm]
  · have hconfig : t.config = s.config := exec_config hexec
    obtain ⟨u, hexec'⟩ := exec_of_admitted (hconfig ▸ exec_admitted hexec) i
    obtain ⟨-, hwrites⟩ := exec_resp_writePort_of_config hexec' hconfig hexec
    refine ⟨u, hexec', ?_⟩
    calc u.mem = t.mem.writeAll u.writePort := exec_mem hexec' (exec_mem_wf hexec hm)
      _ = (s.mem.writeAll t.writePort).writeAll t.writePort := by rw [hwrites, exec_mem hexec hm]
      _ = s.mem.writeAll t.writePort := Memory.writeAll_idem hm _
      _ = t.mem := (exec_mem hexec hm).symm

/-! ### The observer (R40) -/

/-- Bits 3:0 of a colour read are the byte's own. -/
@[simp] theorem colorRead_low (h : ColorHiRead) (draw : BitVec 4) (v : Byte) :
    (colorRead h draw v).extractLsb' 0 4 = v.extractLsb' 0 4 := by
  cases h with
  | asWritten => rfl
  | anyValue => exact BitVec.extractLsb'_append_eq_right

@[simp] theorem colorRead_asWritten (draw : BitVec 4) (v : Byte) : colorRead .asWritten draw v = v := rfl

/-- Bits 7:4 of a colour read are the draw under `anyValue`. -/
@[simp] theorem colorRead_anyValue_high (draw : BitVec 4) (v : Byte) :
    (colorRead .anyValue draw v).extractLsb' 4 4 = draw :=
  BitVec.extractLsb'_append_eq_left

theorem memRead_color (s : State) (draw : BitVec 4) {off : Nat} (hoff : off ≤ 999) :
    memRead s draw (s.config.colorBase + off) = (s.color off).map (colorRead s.config.colorHiRead draw) :=
  if_pos (by simp only [cells]; omega)

/-- The glyph plane is read as it stands: no address of it is one of the colour plane's (R11). -/
theorem memRead_glyph {s : State} (hc : s.config.admitted = true) (draw : BitVec 4) {off : Nat} (hoff : off ≤ 999) :
    memRead s draw (s.config.glyphBase + off) = s.glyph off := by
  obtain ⟨-, -, hapart, -, -⟩ := admitted_iff.mp hc
  exact (if_neg (by simp only [cells]; omega)).trans (if_pos (by simp only [cells]; omega))

/-- Settles O34: a colour read is the stored byte through `colorRead`, a glyph read the stored byte itself. -/
theorem observerReadsThePlanes : Obligations.ObserverReadsThePlanes := by
  intro s draw off hc hoff
  rw [memRead_color s draw hoff]
  refine ⟨memRead_glyph hc draw hoff, fun hnone => ?_, fun v hv =>
    ⟨colorRead s.config.colorHiRead draw v, ?_, colorRead_low _ draw v, ?_, ?_⟩⟩
  · rw [hnone, Option.map_none]
  · rw [hv, Option.map_some]
  · intro hhi
    rw [hhi, colorRead_asWritten]
  · intro hhi
    rw [hhi, colorRead_anyValue_high]

end Sys2Proof.Machine


/-! The command encoding (spec/30_encoding.md): what the decoder reads in a command (R54 to R60), its agreement with
the encoder (R69) and with the opcode table (R62 to R64), the transports (R53), the response of every command (R66), and
the assembler and the host program of the pseudo-instructions (R67, R68). -/

namespace Sys2Proof

/-! ### What the decoder reads (R54 to R64) -/

/-- The coordinates of a WRPT are the signed values of `W1` and `W2` (R59); no other command looks at them (R61). -/
def Instr.CoordsFrom (c : Command) : Instr → Prop
  | .wrpt x y _ => x = c.w1.toInt ∧ y = c.w2.toInt
  | _ => True

/-- A command carries an instruction: `W0` is made of its fields (R54), and `W1` and `W2` are its coordinates. -/
def Command.Carries (c : Command) (i : Instr) : Prop :=
  c.w0 = wordZero i.dataField i.entryField i.opcode ∧ i.CoordsFrom c

/-- A word is put together from three fields exactly when they are its fields `D`, `E` and `OP` (R54). -/
theorem eq_wordZero_iff {w : Word32} {d : BitVec 24} {e op : BitVec 4} :
    w = wordZero d e op ↔ w.extractLsb' 8 24 = d ∧ w.extractLsb' 4 4 = e ∧ w.extractLsb' 0 4 = op := by
  constructor
  · rintro rfl
    exact ⟨(wordZero_dataField d e op 0 24).trans BitVec.extractLsb'_eq_self, wordZero_entryField d e op,
      wordZero_opField d e op⟩
  · rintro ⟨rfl, rfl, rfl⟩
    exact (wordZero_self w).symm

theorem Command.carries_iff {c : Command} {i : Instr} :
    c.Carries i ↔ (c.w0.extractLsb' 8 24 = i.dataField ∧ c.w0.extractLsb' 4 4 = i.entryField ∧
      c.w0.extractLsb' 0 4 = i.opcode) ∧ i.CoordsFrom c :=
  and_congr_left' eq_wordZero_iff

/-- A field of a word is the concatenation of its two parts. -/
theorem extractLsb'_split (w : Word32) (k m n : Nat) :
    w.extractLsb' k (n + m) = w.extractLsb' (k + m) n ++ w.extractLsb' k m :=
  (BitVec.extractLsb'_append_extractLsb'_eq_extractLsb' rfl).symm

/-- An opcode that no instruction has is one of the reserved seven (R64). -/
theorem reserved_of_forall_ne {op : BitVec 4} (h : ∀ i : Instr, i.opcode ≠ op) : op = 0 ∨ 10 ≤ op.toNat := by
  have hqgray := h (.qgray 0)
  have hq15 := h (.q15 0 0 0)
  have hq24 := h (.q24 0 0 0)
  have htorgb := h (.torgb 0)
  have hpack := h (.pack 0)
  have hunpack := h (.unpack 0)
  have hdim := h .dim
  have hwrpt := h (.wrpt 0 0 0)
  have hclear := h (.clear 0)
  simp only [Instr.opcode] at *
  bv_omega

/-- A word that meets a row of the opcode table has the row's bits in every field that the row's mask covers. -/
theorem field_of_meets {w mask bits : Word32} (h : w &&& mask = bits) {k n : Nat}
    (hcovered : mask.extractLsb' k n = BitVec.allOnes n) : w.extractLsb' k n = bits.extractLsb' k n := by
  rw [← h, BitVec.extractLsb'_and, hcovered, BitVec.and_allOnes]

/-- The match of a row is its opcode, with zeros above (R62). -/
theorem rowMatch_eq (i : Instr) : i.rowMatch = 0#28 ++ i.opcode := by
  cases i <;> simp [Instr.rowMatch, Instr.opcode]

/-- A word that meets a row has zeros in every field above the opcode that the row's mask covers. -/
theorem field_zero_of_meets {w mask : Word32} {i : Instr} (h : w &&& mask = i.rowMatch) {k n : Nat} (hk : 4 ≤ k)
    (hcovered : mask.extractLsb' k n = BitVec.allOnes n) : w.extractLsb' k n = 0#n := by
  rw [field_of_meets h hcovered, rowMatch_eq, BitVec.extractLsb'_append_eq_of_le hk, BitVec.extractLsb'_zero]

/-- Everything the decoder can do. Either the opcode is reserved, or it is the opcode of an instruction `i` that is read
exactly where the must-be-zero check of its format holds: the command then carries `i`, and the check holds of every
command that meets the row of `i`. -/
theorem decode_cases (c : Command) :
    ((c.w0.extractLsb' 0 4 = 0 ∨ 10 ≤ (c.w0.extractLsb' 0 4).toNat) ∧
      decode c = .error (.reservedOpcode (c.w0.extractLsb' 0 4))) ∨
    ∃ zero i, decode c = mustBeZero zero (c.w0.extractLsb' 0 4) i ∧ i.opcode = c.w0.extractLsb' 0 4 ∧
      (zero = true → c.Carries i) ∧ (c.w0 &&& i.rowMask = i.rowMatch → zero = true) := by
  simp only [Command.carries_iff, decode]
  split
  case h_1 hop =>
    refine .inr ⟨_, _, rfl, hop.symm, fun hzero => ?_, fun hrow => ?_⟩
    · obtain ⟨hE, hD⟩ := by simpa using hzero
      refine ⟨⟨?_, hE, hop⟩, trivial⟩
      rw [extractLsb'_split c.w0 8 8 16, hD, Instr.dataField]
    · exact Bool.and_eq_true_iff.mpr ⟨beq_iff_eq.mpr (field_zero_of_meets (mask := 0xFFFF00FF#32) hrow (by decide) rfl),
        beq_iff_eq.mpr (field_zero_of_meets (mask := 0xFFFF00FF#32) hrow (by decide) rfl)⟩
  case h_2 hop =>
    refine .inr ⟨_, _, rfl, hop.symm, fun hzero => ?_, fun hrow => ?_⟩
    · obtain ⟨hE, hD⟩ := by simpa using hzero
      refine ⟨⟨?_, hE, hop⟩, trivial⟩
      rw [extractLsb'_split c.w0 8 5 19, extractLsb'_split c.w0 13 5 14, extractLsb'_split c.w0 18 5 9, hD,
        Instr.dataField]
    · exact Bool.and_eq_true_iff.mpr ⟨beq_iff_eq.mpr (field_zero_of_meets (mask := 0xFF8000FF#32) hrow (by decide) rfl),
        beq_iff_eq.mpr (field_zero_of_meets (mask := 0xFF8000FF#32) hrow (by decide) rfl)⟩
  case h_3 hop =>
    refine .inr ⟨_, _, rfl, hop.symm, fun hzero => ?_, fun hrow => ?_⟩
    · refine ⟨⟨?_, beq_iff_eq.mp hzero, hop⟩, trivial⟩
      rw [extractLsb'_split c.w0 8 8 16, extractLsb'_split c.w0 16 8 8, Instr.dataField]
    · exact beq_iff_eq.mpr (field_zero_of_meets (mask := 0x000000FF#32) hrow (by decide) rfl)
  case h_7 hop =>
    refine .inr ⟨_, _, rfl, hop.symm, fun hzero => ?_, fun hrow => ?_⟩
    · obtain ⟨hE, hD⟩ := by simpa using hzero
      exact ⟨⟨hD, hE, hop⟩, trivial⟩
    · exact Bool.and_eq_true_iff.mpr ⟨beq_iff_eq.mpr (field_zero_of_meets (mask := 0xFFFFFFFF#32) hrow (by decide) rfl),
        beq_iff_eq.mpr (field_zero_of_meets (mask := 0xFFFFFFFF#32) hrow (by decide) rfl)⟩
  case h_8 hop =>
    refine .inr ⟨_, _, rfl, hop.symm, fun hzero => ?_, fun hrow => ?_⟩
    · exact ⟨⟨beq_iff_eq.mp hzero, rfl, hop⟩, rfl, rfl⟩
    · exact beq_iff_eq.mpr (field_zero_of_meets (mask := 0xFFFFFF0F#32) hrow (by decide) rfl)
  case h_4 hop | h_5 hop | h_6 hop | h_9 hop =>
    refine .inr ⟨_, _, rfl, hop.symm, fun hzero => ?_, fun hrow => ?_⟩
    · exact ⟨⟨beq_iff_eq.mp hzero, rfl, hop⟩, trivial⟩
    · exact beq_iff_eq.mpr (field_zero_of_meets (mask := 0xFFFFFF0F#32) hrow (by decide) rfl)
  case h_10 =>
    refine .inl ⟨reserved_of_forall_ne fun i hi => ?_, rfl⟩
    cases i <;> exact absurd hi.symm (by assumption)

/-- The parts of the field `D` of QGRAY (R55). -/
theorem dataField_qgray_parts (l : Byte) :
    (Instr.qgray l).dataField.extractLsb' 8 16 = 0#16 ∧ (Instr.qgray l).dataField.extractLsb' 0 8 = l :=
  ⟨BitVec.extractLsb'_append_eq_left, BitVec.extractLsb'_append_eq_right⟩

/-- The parts of the field `D` of Q24 (R57). -/
theorem dataField_q24_parts (r g b : Byte) :
    (Instr.q24 r g b).dataField.extractLsb' 16 8 = r ∧ (Instr.q24 r g b).dataField.extractLsb' 8 8 = g ∧
      (Instr.q24 r g b).dataField.extractLsb' 0 8 = b :=
  ⟨(BitVec.extractLsb'_append_eq_of_le (by decide)).trans BitVec.extractLsb'_append_eq_left,
   (BitVec.extractLsb'_append_eq_of_le (by decide)).trans BitVec.extractLsb'_append_eq_right,
   BitVec.extractLsb'_append_eq_right⟩

/-- The parts of the field `D` of Q15 (R56). -/
theorem dataField_q15_parts (r g b : Chan5) :
    (Instr.q15 r g b).dataField.extractLsb' 15 9 = 0#9 ∧ (Instr.q15 r g b).dataField.extractLsb' 10 5 = r ∧
      (Instr.q15 r g b).dataField.extractLsb' 5 5 = g ∧ (Instr.q15 r g b).dataField.extractLsb' 0 5 = b :=
  ⟨(BitVec.extractLsb'_append_eq_of_le (by decide)).trans <|
     (BitVec.extractLsb'_append_eq_of_le (by decide)).trans BitVec.extractLsb'_append_eq_left,
   (BitVec.extractLsb'_append_eq_of_le (by decide)).trans <|
     (BitVec.extractLsb'_append_eq_of_le (by decide)).trans BitVec.extractLsb'_append_eq_right,
   (BitVec.extractLsb'_append_eq_of_le (by decide)).trans BitVec.extractLsb'_append_eq_right,
   BitVec.extractLsb'_append_eq_right⟩

/-- The decoder reads the instruction that a command carries: every must-be-zero bit of the format is a zero of the
instruction's fields, and every operand is the part of a field that holds it. -/
theorem decode_of_carries {c : Command} {i : Instr} (h : c.Carries i) : decode c = .ok i := by
  obtain ⟨hw, hcoords⟩ := h
  cases i with
  | qgray l => simp [decode, hw, mustBeZero, wordZero_dataField, Instr.opcode, Instr.entryField, dataField_qgray_parts]
  | q15 r g b => simp [decode, hw, mustBeZero, wordZero_dataField, Instr.opcode, Instr.entryField, dataField_q15_parts]
  | q24 r g b => simp [decode, hw, mustBeZero, wordZero_dataField, Instr.opcode, Instr.entryField, dataField_q24_parts]
  | wrpt x y e =>
    obtain ⟨rfl, rfl⟩ := hcoords
    simp [decode, hw, mustBeZero, wordZero_dataField, Instr.opcode, Instr.entryField, Instr.dataField]
  | _ => simp [decode, hw, mustBeZero, wordZero_dataField, Instr.opcode, Instr.entryField, Instr.dataField]

/-- The decoder inverts the layout of R54 to R60. -/
theorem decode_ok_iff {c : Command} {i : Instr} : decode c = .ok i ↔ c.Carries i := by
  refine ⟨fun h => ?_, decode_of_carries⟩
  rcases decode_cases c with ⟨-, hdecode⟩ | ⟨zero, j, hdecode, -, hcarries, -⟩
  · simp [hdecode] at h
  · obtain ⟨hzero, rfl⟩ := mustBeZero_ok_iff.mp (hdecode ▸ h)
    exact hcarries hzero

/-! ### The encoder and the decoder (R69) -/

theorem inS32_iff {v : Int} : inS32 v = true ↔ -2147483648 ≤ v ∧ v ≤ 2147483647 := by
  simp [inS32]

/-- The signed value of a word is a coordinate (R59). -/
theorem inS32_toInt (w : Word32) : inS32 w.toInt = true := by
  have hlow := w.le_toInt
  have hhigh := w.toInt_lt
  exact inS32_iff.mpr (by omega)

/-- A coordinate is the signed value of its word (R69). -/
theorem toInt_ofInt_of_inS32 {v : Int} (h : inS32 v = true) : (BitVec.ofInt 32 v).toInt = v := by
  obtain ⟨hlow, hhigh⟩ := inS32_iff.mp h
  exact BitVec.toInt_ofInt_eq_self (by decide) (by omega) (by omega)

/-- The encoding of a well-formed instruction carries it. -/
theorem encode_carries {i : Instr} (h : i.wf = true) : (encode i).Carries i := by
  refine ⟨encode_w0 i, ?_⟩
  cases i with
  | wrpt x y e =>
    obtain ⟨hx, hy⟩ := Bool.and_eq_true_iff.mp h
    simp only [Instr.CoordsFrom, encode_w1, encode_w2, Instr.xField, Instr.yField, toInt_ofInt_of_inS32 hx,
      toInt_ofInt_of_inS32 hy, and_self]
  | _ => trivial

/-- Only well-formed instructions are carried. -/
theorem wf_of_carries {c : Command} {i : Instr} (h : c.Carries i) : i.wf = true := by
  cases i with
  | wrpt x y e =>
    obtain ⟨-, rfl, rfl⟩ := h
    exact Bool.and_eq_true_iff.mpr ⟨inS32_toInt _, inS32_toInt _⟩
  | _ => rfl

/-- A command that carries a write point is its encoding, in all three words. -/
theorem encode_wrpt_of_carries {c : Command} {x y : Int} {e : Entry} (h : c.Carries (.wrpt x y e)) :
    encode (.wrpt x y e) = c := by
  obtain ⟨hw, rfl, rfl⟩ := h
  simp only [encode, ← hw, Instr.xField, Instr.yField, BitVec.ofInt_toInt, Command.ofWords_self]

/-- Settles O43: the encoding carries the instruction, and the decoder reads what a command carries. -/
theorem decodeOfEncodeIsTheInstruction : Obligations.DecodeOfEncodeIsTheInstruction :=
  fun _ hwf => decode_of_carries (encode_carries hwf)

/-- Settles O44: the command carries what it decodes to, and so has the words of its encoding. -/
theorem encodeOfDecodeIsTheCommand : Obligations.EncodeOfDecodeIsTheCommand := by
  intro c i hdecode
  have hcarries := decode_ok_iff.mp hdecode
  refine ⟨wf_of_carries hcarries, (encode_w0 i).trans hcarries.1.symm, ?_⟩
  rintro ⟨x, y, e, rfl⟩
  exact encode_wrpt_of_carries hcarries

/-! ### The opcode table (R62 to R64) -/

theorem wordZero_and (d d' : BitVec 24) (e e' op op' : BitVec 4) :
    wordZero d e op &&& wordZero d' e' op' = wordZero (d &&& d') (e &&& e') (op &&& op') := by
  rw [wordZero, wordZero, BitVec.and_append, BitVec.and_append]
  rfl

/-- The mask of the formats FE and FP leaves the opcode alone where `D` is zero (R58, R59). -/
theorem wordZero_and_maskFE (e op : BitVec 4) {m : Word32} (hm : m = 0#28 ++ op) :
    wordZero 0#24 e op &&& 0xFFFFFF0F#32 = m := by
  calc wordZero 0#24 e op &&& wordZero 0xFFFFFF#24 0#4 0xF#4
    _ = wordZero 0#24 0#4 op := by
      rw [wordZero_and, BitVec.zero_and, BitVec.and_zero]
      exact congrArg _ BitVec.and_allOnes
    _ = m := by rw [hm, wordZero, BitVec.zero_append_zero]

/-- A command meets the row of the instruction it carries. -/
theorem meets_of_carries {c : Command} {i : Instr} (h : c.Carries i) : c.w0 &&& i.rowMask = i.rowMatch := by
  rw [h.1]
  cases i with
  | qgray l =>
    calc wordZero (0#16 ++ l) 0 1 &&& wordZero (0xFFFF#16 ++ 0#8) 0xF 0xF
      _ = wordZero (0#16 ++ 0#8) 0 1 := by rw [wordZero_and, BitVec.and_append, BitVec.and_zero]; rfl
  | q15 r g b =>
    calc wordZero (0#9 ++ r ++ g ++ b) 0 2 &&& wordZero (0x1FF#9 ++ 0#5 ++ 0#5 ++ 0#5) 0xF 0xF
      _ = wordZero (0#9 ++ 0#5 ++ 0#5 ++ 0#5) 0 2 := by
        rw [wordZero_and, BitVec.and_append, BitVec.and_append, BitVec.and_append]
        simp only [BitVec.and_zero]; rfl
  | q24 r g b =>
    calc wordZero (r ++ g ++ b) 0 3 &&& wordZero 0#24 0xF 0xF
      _ = wordZero 0 0 3 := by rw [wordZero_and, BitVec.and_zero]; rfl
  | dim => rfl
  | torgb e | pack e | unpack e | clear e => exact wordZero_and_maskFE _ _ (rowMatch_eq _)
  | wrpt x y e => exact wordZero_and_maskFE _ _ (rowMatch_eq _)

/-- The rows of the table are those of the instructions (R62). -/
theorem mem_opcodeRows_iff {row : Word32 × Word32} : row ∈ opcodeRows ↔ ∃ i : Instr, row = (i.rowMatch, i.rowMask) := by
  constructor
  · simp only [opcodeRows, List.mem_cons, List.not_mem_nil, or_false]
    rintro (rfl | rfl | rfl | rfl | rfl | rfl | rfl | rfl | rfl)
    exacts [⟨.qgray 0, rfl⟩, ⟨.q15 0 0 0, rfl⟩, ⟨.q24 0 0 0, rfl⟩, ⟨.torgb 0, rfl⟩, ⟨.pack 0, rfl⟩, ⟨.unpack 0, rfl⟩,
      ⟨.dim, rfl⟩, ⟨.wrpt 0 0 0, rfl⟩, ⟨.clear 0, rfl⟩]
  · rintro ⟨i, rfl⟩
    cases i <;> simp [opcodeRows, Instr.rowMatch, Instr.rowMask]

theorem row_mem (i : Instr) : (i.rowMatch, i.rowMask) ∈ opcodeRows :=
  mem_opcodeRows_iff.mpr ⟨i, rfl⟩

/-- No instruction has a reserved opcode (R64). -/
theorem opcode_not_reserved (i : Instr) : ¬(i.opcode = 0 ∨ 10 ≤ i.opcode.toNat) := by
  cases i <;> simp [Instr.opcode]

/-- A word that meets the row of an instruction has its opcode: the masks of all rows cover it. -/
theorem opcode_of_meets {w : Word32} {i : Instr} (h : w &&& i.rowMask = i.rowMatch) :
    w.extractLsb' 0 4 = i.opcode := by
  have hcovered : i.rowMask.extractLsb' 0 4 = BitVec.allOnes 4 := by cases i <;> simp only [Instr.rowMask] <;> decide
  rw [field_of_meets h hcovered, rowMatch_eq, BitVec.extractLsb'_append_eq_right]

/-- The opcodes of the rows are 1 to 9, in this order (R62). -/
theorem opcodeRows_opcodes :
    (opcodeRows.map fun row => row.1.extractLsb' 0 4) = [1#4, 2#4, 3#4, 4#4, 5#4, 6#4, 7#4, 8#4, 9#4] :=
  rfl

/-- The opcode tells the rows apart. -/
theorem row_eq_of_opcode {i j : Instr} (h : i.opcode = j.opcode) :
    (i.rowMatch, i.rowMask) = (j.rowMatch, j.rowMask) := by
  have hnodup : (opcodeRows.map fun row => row.1.extractLsb' 0 4).Nodup := by
    rw [opcodeRows_opcodes]
    decide
  refine List.inj_on_of_nodup_map hnodup (row_mem i) (row_mem j) ?_
  simpa only [rowMatch_eq, BitVec.extractLsb'_append_eq_right] using h

/-- The row of the instruction a command carries is the one row that the command meets. -/
theorem meets_iff_of_carries {c : Command} {i : Instr} (h : c.Carries i) {row : Word32 × Word32}
    (hrow : row ∈ opcodeRows) : c.w0 &&& row.2 = row.1 ↔ row = (i.rowMatch, i.rowMask) := by
  obtain ⟨j, rfl⟩ := mem_opcodeRows_iff.mp hrow
  constructor
  · exact fun hmeets => row_eq_of_opcode ((opcode_of_meets hmeets).symm.trans (opcode_of_meets (meets_of_carries h)))
  · intro hsame
    rw [hsame]
    exact meets_of_carries h

/-- A command decodes exactly when it meets a row (R63). -/
theorem decodes_iff_meets {c : Command} :
    (∃ i, decode c = .ok i) ↔ ∃ row ∈ opcodeRows, c.w0 &&& row.2 = row.1 := by
  constructor
  · rintro ⟨i, hdecode⟩
    exact ⟨_, row_mem i, meets_of_carries (decode_ok_iff.mp hdecode)⟩
  · rintro ⟨row, hrow, hmeets⟩
    obtain ⟨j, rfl⟩ := mem_opcodeRows_iff.mp hrow
    have hopcode := opcode_of_meets hmeets
    rcases decode_cases c with ⟨hreserved, -⟩ | ⟨zero, i, hdecode, hop, -, hzero⟩
    · exact absurd (hopcode ▸ hreserved) (opcode_not_reserved j)
    · obtain ⟨hmatch, hmask⟩ := Prod.mk.inj (row_eq_of_opcode (hop.trans hopcode))
      exact ⟨i, hdecode.trans (mustBeZero_ok_iff.mpr ⟨hzero (by rw [hmask, hmatch]; exact hmeets), rfl⟩)⟩

/-- Settles O45: a command that decodes meets the row of what it carries alone, and one that meets a row decodes. -/
theorem decodesAsTheUniqueMatchingRow : Obligations.DecodesAsTheUniqueMatchingRow := by
  intro c
  cases hdecode : decode c with
  | ok i => exact .inl ⟨i, rfl, row_mem i, fun row hrow => meets_iff_of_carries (decode_ok_iff.mp hdecode) hrow⟩
  | error why =>
    refine .inr ⟨⟨why, rfl⟩, fun row hrow hmeets => ?_⟩
    obtain ⟨i, hok⟩ := decodes_iff_meets.mpr ⟨row, hrow, hmeets⟩
    simp [hdecode] at hok

/-- Settles O46: an assigned opcode is the opcode of some instruction, whose row the command would meet if the
must-be-zero check held. -/
theorem reservedEncodingsAreIllegal : Obligations.ReservedEncodingsAreIllegal := by
  intro c
  rcases decode_cases c with ⟨hreserved, hdecode⟩ | ⟨zero, i, hdecode, hop, hcarries, -⟩
  · refine ⟨fun _ => hdecode, fun hlow hhigh _ => absurd hreserved ?_⟩
    bv_omega
  · refine ⟨fun hreserved => absurd hreserved ?_, fun _ _ hnone => ?_⟩
    · exact hop ▸ opcode_not_reserved i
    · cases zero with
      | true => exact absurd (meets_of_carries (hcarries rfl)) (hnone _ (row_mem i))
      | false => exact hdecode

/-- Only WRPT is decoded from more than `W0` (R61). -/
theorem decode_eq_of_w0 {c d : Command} (hw : c.w0 = d.w0) (hop : c.w0.extractLsb' 0 4 ≠ 0x8#4) :
    decode c = decode d := by
  rw [hw] at hop
  simp only [decode, hw]
  split
  case h_8 hwrpt => exact absurd hwrpt hop
  all_goals rfl

/-- Settles O47: whether a command meets a row is a matter of `W0` alone. -/
theorem otherWordsMatterOnlyToWrpt : Obligations.OtherWordsMatterOnlyToWrpt := by
  intro c d hw
  refine ⟨decode_eq_of_w0 hw, fun i hdecode => ?_, fun x y e hdecode => (decode_ok_iff.mp hdecode).2⟩
  exact decodes_iff_meets.mpr (hw ▸ decodes_iff_meets.mp ⟨i, hdecode⟩)

/-! ### The words and bytes of a command (R52, R53, R69) -/

/-- `W0` by the shifts of R69. -/
theorem wordZero_eq_shifts (d : BitVec 24) (e op : BitVec 4) :
    wordZero d e op = (d.setWidth 32 <<< 8) ||| (e.setWidth 32 <<< 4) ||| op.setWidth 32 := by
  rw [← BitVec.setWidth_eq (wordZero d e op), wordZero]
  exact BitVec.setWidth_append_append_eq_shiftLeft_setWidth_or

/-- `D` of QGRAY is the luma (R69). -/
theorem dataField_qgray_eq (l : Byte) : (Instr.qgray l).dataField.setWidth 32 = l.setWidth 32 :=
  BitVec.setWidth_append_eq_shiftLeft_setWidth_or.trans (by simp)

/-- `D` of Q15 by the shifts of R69. -/
theorem dataField_q15_eq_shifts (r g b : Chan5) : (Instr.q15 r g b).dataField.setWidth 32 =
    (r.setWidth 32 <<< 10) ||| (g.setWidth 32 <<< 5) ||| b.setWidth 32 :=
  BitVec.setWidth_append_append_append_eq_shiftLeft_setWidth_or.trans (by simp)

/-- `D` of Q24 by the shifts of R69. -/
theorem dataField_q24_eq_shifts (r g b : Byte) : (Instr.q24 r g b).dataField.setWidth 32 =
    (r.setWidth 32 <<< 16) ||| (g.setWidth 32 <<< 8) ||| b.setWidth 32 :=
  BitVec.setWidth_append_append_eq_shiftLeft_setWidth_or

/-- A coordinate's word is the coordinate mod 2^32 (R69). -/
theorem toNat_ofInt_eq_emod (v : Int) : ((BitVec.ofInt 32 v).toNat : Int) = v % 2 ^ 32 := by
  rw [BitVec.toNat_ofInt]
  omega

/-- Settles O48: the fields `D` and `E` are those of the encoder, read as numbers. -/
theorem encodingFollowsTheShiftFormula : Obligations.EncodingFollowsTheShiftFormula := by
  refine ⟨fun i => ⟨i.dataField.setWidth 32, i.entryField.setWidth 32, ?_, ?_⟩, by decide⟩
  · rw [encode_w0, wordZero_eq_shifts]
  · simp only [encode_w1, encode_w2]
    cases i with
    | qgray l => exact ⟨dataField_qgray_eq l, rfl, rfl, rfl⟩
    | q15 r g b => exact ⟨dataField_q15_eq_shifts r g b, rfl, rfl, rfl⟩
    | q24 r g b => exact ⟨dataField_q24_eq_shifts r g b, rfl, rfl, rfl⟩
    | wrpt x y e => exact ⟨rfl, rfl, toNat_ofInt_eq_emod x, toNat_ofInt_eq_emod y⟩
    | _ => exact ⟨rfl, rfl, rfl, rfl⟩

/-- Byte `k` stands right below the bits from byte `k + 1` on. -/
theorem extractLsb'_append_byte (c : Command) (k n : Nat) :
    c.extractLsb' (8 * (k + 1)) n ++ c.byte k = c.extractLsb' (8 * k) (n + 8) :=
  BitVec.extractLsb'_append_extractLsb'_eq_extractLsb' rfl

/-- The twelve bytes of a command, joined from the last down to the first, are the command. -/
theorem ofBytes_toBytes (c : Command) : Command.ofBytes c.toBytes = some c := by
  have htop : c.byte 11 = c.extractLsb' (8 * (10 + 1)) 8 := rfl
  calc Command.ofBytes c.toBytes
    _ = some (c.byte 11 ++ c.byte 10 ++ c.byte 9 ++ c.byte 8 ++ c.byte 7 ++ c.byte 6 ++ c.byte 5 ++ c.byte 4 ++
          c.byte 3 ++ c.byte 2 ++ c.byte 1 ++ c.byte 0) := rfl
    _ = some (c.extractLsb' 0 96) := by
      rw [htop, extractLsb'_append_byte c 10, extractLsb'_append_byte c 9, extractLsb'_append_byte c 8,
        extractLsb'_append_byte c 7, extractLsb'_append_byte c 6, extractLsb'_append_byte c 5,
        extractLsb'_append_byte c 4, extractLsb'_append_byte c 3, extractLsb'_append_byte c 2,
        extractLsb'_append_byte c 1, extractLsb'_append_byte c 0]
    _ = some c := congrArg some BitVec.extractLsb'_eq_self

theorem getElem?_toBytes (c : Command) {k : Nat} (hk : k < 12) : c.toBytes[k]? = some (c.byte k) := by
  simp [Command.toBytes, hk]

/-- The decoder on the byte transport reads the command that the bytes carry. -/
theorem decodeBytes_toBytes (c : Command) : decodeBytes c.toBytes = decode c := by
  simp only [decodeBytes, ofBytes_toBytes]

/-- Settles O49: the words and the bytes are consecutive fields of the command. -/
theorem transportsCarryTheCommand : Obligations.TransportsCarryTheCommand := fun c =>
  ⟨c.ofWords_self, by simp [Command.toBytes], fun _ hk => getElem?_toBytes c hk, ofBytes_toBytes c,
    decodeBytes_toBytes c⟩

/-- Settles O51: the decoder run on each of the listed words. -/
theorem listedWordsDecode : Obligations.ListedWordsDecode := by
  refine ⟨?_, ?_, ?_, ?_, ?_, ?_, ?_, ?_, ?_⟩ <;> decide

end Sys2Proof

namespace Sys2Proof.Machine

/-! ### The response of every command (R66) -/

/-- The band list of R71. -/
theorem band_eq (l : Byte) :
    (l.toNat ≤ 31 → band l = 0) ∧ (32 ≤ l.toNat → l.toNat ≤ 63 → band l = 1) ∧
    (64 ≤ l.toNat → l.toNat ≤ 95 → band l = 2) ∧ (96 ≤ l.toNat → l.toNat ≤ 127 → band l = 3) ∧
    (128 ≤ l.toNat → band l = 4) := by
  unfold band
  split_ifs <;> omega

/-- The model's quantizer answers the entry of the luma's band. -/
theorem bandEntry_quantGray (c : Config) (l : Byte) : bandEntry c l (c.quantGray l) := by
  have hentry {k : Fin 5} (hk : band l = k) : c.quantGray l = c.grayEntry[k] := congrArg (c.grayEntry[·]) hk
  obtain ⟨h0, h1, h2, h3, h4⟩ := band_eq l
  exact ⟨fun hhigh => hentry (h0 hhigh), fun hlow hhigh => hentry (h1 hlow hhigh),
    fun hlow hhigh => hentry (h2 hlow hhigh), fun hlow hhigh => hentry (h3 hlow hhigh), fun hlow => hentry (h4 hlow)⟩

/-- The value of the response to an instruction (R66). -/
def responseValue (c : Config) : Instr → BitVec 24
  | .qgray l => (c.quantGray l).setWidth 24
  | .q15 r g b => (c.quantGray (c.luma15 r g b)).setWidth 24
  | .q24 r g b => (c.quantGray (c.luma24 r g b)).setWidth 24
  | .torgb e => (c.rgbOf e).word
  | .pack e => e.setWidth 24
  | .unpack n => n.setWidth 24
  | .dim => dimensionWord
  | .wrpt _ _ _ => 0
  | .clear _ => 0

/-- A command that runs answers `(OK, value)`. -/
theorem exec_responseValue {i : Instr} {s t : State} (h : exec i s = .next t) :
    t.resp = some ⟨.ok, responseValue s.config i⟩ := by
  cases i with
  | wrpt x y e =>
    obtain ⟨-, rfl⟩ := complete_next_iff.mp h
    rfl
  | clear e =>
    obtain ⟨-, rfl⟩ := complete_next_iff.mp h
    rfl
  | _ =>
    obtain ⟨-, rfl⟩ := respond_next_iff.mp h
    rfl

theorem serve_of_decode_ok {c : Command} {i : Instr} (h : decode c = .ok i) (s : State) : serve c s = exec i s := by
  simp only [serve, h]

theorem serve_of_decode_error {c : Command} {why : DecodeError} (h : decode c = .error why) {s : State}
    (hs : s.config.admitted = true) : serve c s = .next (s.served s.mem [] illegalAnswer) := by
  simp only [serve, h]
  exact proceed_of_admitted hs

/-- An entry or a nibble keeps its value in the response. -/
theorem toNat_setWidth_response (e : Entry) : (e.setWidth 24).toNat = e.toNat := by
  have := e.isLt
  simp only [BitVec.toNat_setWidth]
  omega

/-- Settles O26: a command that decodes is executed and answers its value, any other is answered as illegal. -/
theorem everyCommandGetsItsResponse : Obligations.EveryCommandGetsItsResponse := by
  intro c s hs
  cases hdecode : decode c with
  | error why => exact ⟨_, _, serve_of_decode_error hdecode hs, rfl, rfl, rfl⟩
  | ok i =>
    obtain ⟨t, hexec⟩ := exec_of_admitted hs i
    refine ⟨t, _, (serve_of_decode_ok hdecode s).trans hexec, exec_responseValue hexec, rfl, rfl, ?_⟩
    cases i with
    | qgray l => exact ⟨_, bandEntry_quantGray _ _, rfl⟩
    | q15 r g b => exact ⟨_, bandEntry_quantGray _ _, rfl⟩
    | q24 r g b => exact ⟨_, bandEntry_quantGray _ _, rfl⟩
    | pack e => exact toNat_setWidth_response e
    | unpack n => exact toNat_setWidth_response n
    | _ => rfl

/-! ### The host program of the pseudo-instructions (R4, R68) -/

/-- A well-formed instruction that the host presents is what the next step executes. -/
theorem step_present_encode {i : Instr} (hi : i.wf = true) (s : State) : step (s.present (encode i)) = exec i s := by
  rw [step_of_inputs_cons (State.present_inputs s (encode i))]
  simp only [accept, runCommand, decodeOfEncodeIsTheInstruction i hi]
  rfl

/-- The host goes on from where the command that it issued leads. -/
theorem runHost_cons_of_next {h : HostStep} {hs : List HostStep} {i : Instr} {s t : State}
    (hcommand : h.commandFor s.resp = some i) (hi : i.wf = true) (hexec : exec i s = .next t) :
    runHost (h :: hs) s = runHost hs t := by
  simp only [runHost, hcommand, step_present_encode hi, hexec]

/-- The host's last step ends as its command does. -/
theorem runHost_singleton {h : HostStep} {i : Instr} {s : State} (hcommand : h.commandFor s.resp = some i)
    (hi : i.wf = true) : runHost [h] s = exec i s := by
  simp only [runHost, hcommand, step_present_encode hi]
  cases exec i s <;> rfl

/-- The entry in the response of a quantize command is what the host passes on. -/
theorem commandFor_plotResult (x y : Int) (e : Entry) :
    (HostStep.plotResult x y).commandFor (some ⟨.ok, e.setWidth 24⟩) = some (.wrpt x y e) := by
  have hlow : (e.setWidth 24).extractLsb' 0 4 = e := by
    apply BitVec.eq_of_toNat_eq
    rw [BitVec.extractLsb'_toNat, toNat_setWidth_response, Nat.shiftRight_zero, Nat.mod_eq_of_lt e.isLt]
  simp only [HostStep.commandFor, Option.map_some, hlow]

/-- A quantize command that answers an entry, with the write point that follows. -/
theorem runHost_quantize_plot {i : Instr} {s : State} {x y : Int} {e : Entry} (hx : inS32 x = true)
    (hy : inS32 y = true) (hi : i.wf = true) (hexec : exec i s = .next (s.answering (e.setWidth 24))) :
    runHost [.issue i, .plotResult x y] s = exec (.wrpt x y e) (s.answering (e.setWidth 24)) := by
  rw [runHost_cons_of_next rfl hi hexec]
  exact runHost_singleton (commandFor_plotResult x y e) (Bool.and_eq_true_iff.mpr ⟨hx, hy⟩)

/-- Settles O42: each quantize command answers the entry of its luma, which the write point takes. -/
theorem plotWritesTheQuantizedColour : Obligations.PlotWritesTheQuantizedColour := fun _ _ _ hs hx hy =>
  ⟨fun _ => runHost_quantize_plot hx hy rfl (respond_of_admitted hs _),
   fun _ _ _ => runHost_quantize_plot hx hy rfl (respond_of_admitted hs _),
   fun _ _ _ => runHost_quantize_plot hx hy rfl (respond_of_admitted hs _),
   (runHost_singleton (i := .dim) rfl rfl).trans (respond_of_admitted hs _)⟩

/-! ### The assembler (R67) -/

/-- The coordinates of a line are in the range of `s32`. -/
def SourceLine.InRange : SourceLine → Prop
  | .command i => i.wf = true
  | .wrmany points => ∀ p ∈ points, inS32 p.1 = true ∧ inS32 p.2.1 = true
  | .plotg x y _ => inS32 x = true ∧ inS32 y = true
  | .plot15 x y _ _ _ => inS32 x = true ∧ inS32 y = true
  | .plot24 x y _ _ _ => inS32 x = true ∧ inS32 y = true
  | .nop => True

theorem inS32_of_coordOperand {cs : List Char} {v : Int} (h : coordOperand cs = some v) : inS32 v = true := by
  unfold coordOperand at h
  split at h
  · split at h
    · next hrange => exact Option.some.inj h ▸ hrange
    · nomatch h
  · nomatch h

theorem read3_eq_some {α β γ δ : Type} {a : Option α} {b : Option β} {c : Option γ} {f : α → β → γ → δ} {d : δ}
    (h : read3 a b c f = some d) : ∃ x y z, a = some x ∧ b = some y ∧ c = some z ∧ f x y z = d := by
  simpa only [read3, Option.bind_eq_some_iff, Option.map_eq_some_iff, exists_and_left] using h

theorem pointOperand_inS32 {ls : List (List Char)} {p : Int × Int × Entry} (h : pointOperand ls = some p) :
    inS32 p.1 = true ∧ inS32 p.2.1 = true := by
  unfold pointOperand at h
  split at h
  · split at h
    · obtain ⟨x, hx, h⟩ := Option.bind_eq_some_iff.mp h
      obtain ⟨y, hy, h⟩ := Option.bind_eq_some_iff.mp h
      obtain ⟨e, -, rfl⟩ := Option.map_eq_some_iff.mp h
      exact ⟨inS32_of_coordOperand hx, inS32_of_coordOperand hy⟩
    · nomatch h
  · nomatch h

theorem morePoints_inS32 {gs : List (List (List Char))} {points : List (Int × Int × Entry)}
    (h : morePoints gs = some points) : ∀ p ∈ points, inS32 p.1 = true ∧ inS32 p.2.1 = true := by
  induction gs generalizing points with
  | nil =>
    obtain rfl := Option.some.inj h
    simp
  | cons g gs ih =>
    cases g with
    | nil => nomatch h
    | cons comma g =>
      rw [morePoints] at h
      split at h
      · obtain ⟨p, hp, h⟩ := Option.bind_eq_some_iff.mp h
        obtain ⟨ps, hps, rfl⟩ := Option.map_eq_some_iff.mp h
        exact List.forall_mem_cons.mpr ⟨pointOperand_inS32 hp, ih hps⟩
      · nomatch h

theorem pointOperands_inS32 {ls : List (List Char)} {points : List (Int × Int × Entry)}
    (h : pointOperands ls = some points) : ∀ p ∈ points, inS32 p.1 = true ∧ inS32 p.2.1 = true := by
  unfold pointOperands at h
  split at h
  · nomatch h
  · obtain rfl := Option.some.inj h
    simp
  · obtain ⟨p, hp, h⟩ := Option.bind_eq_some_iff.mp h
    obtain ⟨ps, hps, rfl⟩ := Option.map_eq_some_iff.mp h
    exact List.forall_mem_cons.mpr ⟨pointOperand_inS32 hp, morePoints_inS32 hps⟩

theorem line0_inRange {mnemonic : List Char} {l : SourceLine} (h : line0 mnemonic = some l) : l.InRange := by
  unfold line0 at h
  split_ifs at h
  all_goals
    obtain rfl := Option.some.inj h
    trivial

/-- No mnemonic with one operand takes a coordinate. -/
theorem line1_inRange {mnemonic a : List Char} {l : SourceLine} (h : line1 mnemonic a = some l) : l.InRange := by
  unfold line1 at h
  split_ifs at h
  all_goals
    obtain ⟨v, -, rfl⟩ := Option.map_eq_some_iff.mp h
    rfl

theorem line3_inRange {mnemonic a b c : List Char} {l : SourceLine} (h : line3 mnemonic a b c = some l) :
    l.InRange := by
  unfold line3 at h
  split_ifs at h
  all_goals obtain ⟨u, v, w, hu, hv, -, rfl⟩ := read3_eq_some h
  · rfl
  · rfl
  · exact Bool.and_eq_true_iff.mpr ⟨inS32_of_coordOperand hu, inS32_of_coordOperand hv⟩
  · exact ⟨inS32_of_coordOperand hu, inS32_of_coordOperand hv⟩

theorem line5_inRange {mnemonic a b c d e : List Char} {l : SourceLine} (h : line5 mnemonic a b c d e = some l) :
    l.InRange := by
  obtain ⟨x, hx, h⟩ := Option.bind_eq_some_iff.mp h
  obtain ⟨y, hy, h⟩ := Option.bind_eq_some_iff.mp h
  split_ifs at h
  all_goals
    obtain ⟨u, v, w, -, -, -, rfl⟩ := read3_eq_some h
    exact ⟨inS32_of_coordOperand hx, inS32_of_coordOperand hy⟩

theorem lineOf_inRange {mnemonic : List Char} {ops : List (List Char)} {l : SourceLine}
    (h : lineOf mnemonic ops = some l) : l.InRange := by
  unfold lineOf at h
  split at h
  · exact line0_inRange h
  · exact line1_inRange h
  · exact line3_inRange h
  · exact line5_inRange h
  · nomatch h

/-- Every coordinate of an accepted line has passed the range check. -/
theorem assemble_inRange {line : String} {l : SourceLine} (h : assemble line = some l) : l.InRange := by
  unfold assemble at h
  split at h
  · nomatch h
  · split at h
    · obtain ⟨points, hpoints, rfl⟩ := Option.map_eq_some_iff.mp h
      exact pointOperands_inS32 hpoints
    · split at h
      · exact lineOf_inRange h
      · nomatch h

/-- Settles O50: every operand reader of a coordinate checks its range. -/
theorem assembledLinesAreWellFormed : Obligations.AssembledLinesAreWellFormed := by
  intro line l h
  have hrange := assemble_inRange h
  cases l <;> exact hrange

end Sys2Proof.Machine


/-! The palette quantizer (spec/40_palette_quantizer.md): the band of a luma (R71), the default formulas of the luma and
of the expansion (R72, R73), the palette row as a word (R78), and what the six pure commands of the family answer (R74
to R82). -/

namespace Sys2Proof

/-! ### Pure functions of the operands (R71 to R73, R78) -/

/-- The luma bands are 32 wide, but for the last, which has all the rest (R71). -/
theorem band_val (l : Byte) : (band l).val = min (l.toNat / 32) 4 := by
  unfold band
  split_ifs <;> simp only [Fin.isValue, Fin.coe_ofNat_eq_mod] <;> omega

/-- `L[7:5]` is the luma divided by the width of a band. -/
theorem toNat_lumaTop (l : Byte) : (l.extractLsb' 5 3).toNat = l.toNat / 32 := by
  have hl := l.isLt
  rw [BitVec.extractLsb'_toNat, Nat.shiftRight_eq_div_pow]
  omega

/-- The weights of the default luma add up to its divisor, so no sum exceeds a byte (R72). -/
theorem lumaSum_le (r g b : Byte) : (77 * r.toNat + 150 * g.toNat + 29 * b.toNat + 128) / 256 ≤ 255 := by
  have hr := r.isLt
  have hg := g.isLt
  have hb := b.isLt
  omega

/-- The weights of the default luma add up to its divisor, so a gray is its own luma (R72). -/
theorem luma24Default_gray (v : Byte) : luma24Default ⟨v, v, v⟩ = v := by
  have hsum : (77 * v.toNat + 150 * v.toNat + 29 * v.toNat + 128) / 256 = v.toNat := by omega
  rw [luma24Default, hsum, BitVec.ofNat_toNat, BitVec.setWidth_eq]

/-- The default configuration expands by the default formula (R73). -/
theorem Config.default_expand5 (v : Chan5) : Config.default.expand5 v = expand5Default v.toNat := by
  simp [Config.expand5, Config.default]

/-- The channels of a row in its word (R78). -/
theorem Rgb.word_channels (p : Rgb) :
    p.word.extractLsb' 16 8 = p.r ∧ p.word.extractLsb' 8 8 = p.g ∧ p.word.extractLsb' 0 8 = p.b :=
  ⟨(BitVec.extractLsb'_append_eq_of_le (by decide)).trans BitVec.extractLsb'_append_eq_left,
   (BitVec.extractLsb'_append_eq_of_le (by decide)).trans BitVec.extractLsb'_append_eq_right,
   BitVec.extractLsb'_append_eq_right⟩

/-- A row is determined by its word. -/
theorem Rgb.word_injective : Function.Injective Rgb.word := by
  intro p q h
  obtain ⟨hpr, hpg, hpb⟩ := p.word_channels
  obtain ⟨hqr, hqg, hqb⟩ := q.word_channels
  rw [h] at hpr hpg hpb
  obtain ⟨r, g, b⟩ := p
  obtain ⟨r', g', b'⟩ := q
  exact congr (congr (congrArg Rgb.mk (hpr.symm.trans hqr)) (hpg.symm.trans hqg)) (hpb.symm.trans hqb)

/-- Where the rows are pairwise distinct, a row tells its entry (R30). -/
theorem Config.rgbOf_injective {c : Config} (hrows : ∀ i j : Fin 16, c.paletteRgb[i] = c.paletteRgb[j] → i = j) :
    Function.Injective c.rgbOf :=
  fun _ _ h => BitVec.toFin_inj.mp (hrows _ _ h)

/-- The low four bits of a response that carries an ordinal are the ordinal (R66). -/
theorem lowNibble_setWidth (e : Entry) : (e.setWidth 24).extractLsb' 0 4 = e := by
  rw [← BitVec.setWidth_eq_extractLsb' (by decide), BitVec.setWidth_setWidth_of_le e (by decide), BitVec.setWidth_eq]

/-- A command of the family or DIM: its effect is its response alone (R70, R86). -/
def Instr.IsPure : Instr → Prop
  | .wrpt _ _ _ => False
  | .clear _ => False
  | _ => True

/-- A pure command is decoded from `W0` alone (R61), by its fields (R54). -/
theorem decode_pure_iff {c : Command} (i : Instr) (hi : i.IsPure) :
    decode c = .ok i ↔ c.w0 = wordZero i.dataField i.entryField i.opcode := by
  have hcoords : i.CoordsFrom c := by
    cases i with
    | wrpt x y e => exact hi.elim
    | _ => trivial
  exact decode_ok_iff.trans (and_iff_left hcoords)

end Sys2Proof

namespace Sys2Proof.Machine

/-! ### What a pure command does (R70, R74 to R82) -/

@[simp] theorem State.answering_config (s : State) (v : BitVec 24) : (s.answering v).config = s.config := rfl

@[simp] theorem State.answering_resp (s : State) (v : BitVec 24) : (s.answering v).resp = some ⟨.ok, v⟩ := rfl

/-- A pure command answers its value and changes nothing else. -/
theorem exec_pure {s : State} (i : Instr) (hi : i.IsPure) (hs : s.config.admitted = true) :
    exec i s = .next (s.answering (responseValue s.config i)) := by
  cases i with
  | wrpt x y e => exact hi.elim
  | clear e => exact hi.elim
  | _ => exact respond_of_admitted hs _

/-- Settles O2: the entry is that of the band of the luma. -/
theorem qgrayAnswersTheEntryOfItsBand : Obligations.QgrayAnswersTheEntryOfItsBand :=
  ⟨fun _ l => decode_pure_iff (.qgray l) trivial,
   fun _ l hs => ⟨_, bandEntry_quantGray _ _, exec_pure (.qgray l) trivial hs⟩⟩

/-- Settles O3: the entry is that of the band of LUMA15. -/
theorem q15AnswersTheEntryOfItsLumaBand : Obligations.Q15AnswersTheEntryOfItsLumaBand :=
  ⟨fun _ r g b => decode_pure_iff (.q15 r g b) trivial,
   fun _ r g b hs => ⟨_, bandEntry_quantGray _ _, exec_pure (.q15 r g b) trivial hs⟩⟩

/-- Settles O4: the entry is that of the band of LUMA24. -/
theorem q24AnswersTheEntryOfItsLumaBand : Obligations.Q24AnswersTheEntryOfItsLumaBand :=
  ⟨fun _ r g b => decode_pure_iff (.q24 r g b) trivial,
   fun _ r g b hs => ⟨_, bandEntry_quantGray _ _, exec_pure (.q24 r g b) trivial hs⟩⟩

/-- Equal answers of TORGB are equal rows, so equal entries where the rows are pairwise distinct (R30). -/
theorem entry_eq_of_torgb_resp {s t u : State} {e f : Entry}
    (hrows : ∀ i j : Fin 16, s.config.paletteRgb[i] = s.config.paletteRgb[j] → i = j)
    (ht : exec (.torgb e) s = .next t) (hu : exec (.torgb f) s = .next u) (hresp : t.resp = u.resp) : e = f := by
  rw [exec_responseValue ht, exec_responseValue hu, Option.some_inj, Response.mk.injEq] at hresp
  exact Config.rgbOf_injective hrows (Rgb.word_injective hresp.2)

/-- The source's Blue: TORGB 6 answers the word of row 6 (R30, R78). -/
theorem exec_torgb_blue {s : State} (hs : s.config.admitted = true) (hblue : s.config.paletteRgb[6] = ⟨0, 0, 170⟩) :
    exec (.torgb 6) s = .next (s.answering 0x0000AA) := by
  have hword : (s.config.rgbOf 6).word = 0x0000AA := congrArg Rgb.word hblue
  rw [← hword]
  exact exec_pure (.torgb 6) trivial hs

/-- Settles O8: the answer is the word of the entry's row. -/
theorem torgbAnswersTheRowOfTheEntry : Obligations.TorgbAnswersTheRowOfTheEntry :=
  ⟨fun _ e => decode_pure_iff (.torgb e) trivial,
   fun s e hs => ⟨_, exec_pure (.torgb e) trivial hs, (s.config.rgbOf e).word_channels⟩,
   fun _ _ _ _ _ => entry_eq_of_torgb_resp,
   fun _ => exec_torgb_blue⟩

/-- Settles O1: both numbers are the luma divided by 32, up to 4. -/
theorem grayBandsFollowTheBandList : Obligations.GrayBandsFollowTheBandList := by
  intro c l
  refine ⟨bandEntry_quantGray c l, ?_⟩
  rw [band_val, toNat_lumaTop]

/-- Q15 quantizes the luma of its colour as QGRAY does. -/
theorem exec_q15_eq_qgray (s : State) (r g b : Chan5) :
    exec (.q15 r g b) s = exec (.qgray (s.config.luma15 r g b)) s := rfl

/-- Q24 quantizes the luma of its colour as QGRAY does. -/
theorem exec_q24_eq_qgray (s : State) (r g b : Byte) :
    exec (.q24 r g b) s = exec (.qgray (s.config.luma24 r g b)) s := rfl

/-- Settles O5: two colours of equal luma meet in QGRAY of that luma. -/
theorem coloursDegradeToTheirLuma : Obligations.ColoursDegradeToTheirLuma := by
  refine ⟨exec_q15_eq_qgray, exec_q24_eq_qgray, fun s r g b r' g' b' hluma => ?_⟩
  rw [exec_q15_eq_qgray, exec_q24_eq_qgray, hluma]

/-- Settles O7: the weights of the default luma add up to 256, and the default expansion is its formula. -/
theorem defaultLumaOfAGrayIsItself : Obligations.DefaultLumaOfAGrayIsItself :=
  ⟨luma24Default_gray, lumaSum_le, Config.default_expand5 0, Config.default_expand5 31⟩

/-- Settles O9: the response value of PACK is the ordinal. -/
theorem packAnswersTheOrdinal : Obligations.PackAnswersTheOrdinal :=
  ⟨fun _ e => decode_pure_iff (.pack e) trivial, fun _ e hs => exec_pure (.pack e) trivial hs⟩

/-- Settles O10: the response value of UNPACK is the ordinal. -/
theorem unpackAnswersTheOrdinal : Obligations.UnpackAnswersTheOrdinal :=
  ⟨fun _ n => decode_pure_iff (.unpack n) trivial, fun _ n hs => exec_pure (.unpack n) trivial hs⟩

/-- Two pure commands that each answer the ordinal given to them: the second, given what the first answered, answers
what the first was given. -/
theorem exec_ordinal_roundTrip {there back : Entry → Instr}
    (hthere : ∀ (s : State) (e : Entry), s.config.admitted = true →
      exec (there e) s = .next (s.answering (e.setWidth 24)))
    (hback : ∀ (s : State) (e : Entry), s.config.admitted = true →
      exec (back e) s = .next (s.answering (e.setWidth 24)))
    (s : State) (e : Entry) (hs : s.config.admitted = true) :
    ∃ t v, exec (there e) s = .next t ∧ t.resp = some ⟨.ok, v⟩ ∧
      exec (back (v.extractLsb' 0 4)) t = .next (t.answering (e.setWidth 24)) := by
  refine ⟨_, _, hthere s e hs, State.answering_resp s _, ?_⟩
  rw [lowNibble_setWidth]
  exact hback _ e hs

/-- Settles O11: PACK and UNPACK each answer the ordinal they are given, so each undoes the other. -/
theorem packAndUnpackRoundTrip : Obligations.PackAndUnpackRoundTrip :=
  ⟨exec_ordinal_roundTrip packAnswersTheOrdinal.2 unpackAnswersTheOrdinal.2,
   exec_ordinal_roundTrip unpackAnswersTheOrdinal.2 packAnswersTheOrdinal.2⟩

end Sys2Proof.Machine


/-! The display write controller (spec/41_display_write_controller.md): DIM (R86), the bounds check and the numbering of
the cells (R83, R84), what WRPT and CLEAR write (R85 to R88, R92), and what runs of commands leave in the planes (R89 to
R91). -/

namespace Sys2Proof

/-! ### Cells and decoding (R83, R84, R87, R88) -/

/-- Settles O12: DIM is a pure command whose fields make the word 7 and whose response value is 0x001928. -/
theorem dimAnswersFortyByTwentyFive : Obligations.DimAnswersFortyByTwentyFive :=
  ⟨fun _ => decode_pure_iff .dim trivial, fun _ hs => Machine.exec_pure .dim trivial hs⟩

/-- Settles O13: a signed comparison of words compares their two's complement values. -/
theorem boundsCheckIsSigned : Obligations.BoundsCheckIsSigned := by
  intro x y
  rw [Machine.inbounds_iff, BitVec.sle_iff_toInt_le, BitVec.sle_iff_toInt_le, BitVec.slt_iff_toInt_lt,
    BitVec.slt_iff_toInt_lt]
  rfl

/-- The cell of an offset is its remainder and quotient by the 40 columns (R84). -/
theorem inbounds_and_offset_iff {x y : Int} {off : Nat} (hoff : off ≤ 999) :
    inbounds x y = true ∧ offset x y = off ↔ x = (off % 40 : Nat) ∧ y = (off / 40 : Nat) := by
  rw [Machine.inbounds_iff]
  constructor
  · rintro ⟨⟨hx, hx', hy, hy'⟩, rfl⟩
    have hcast := Machine.offset_cast hx hy
    omega
  · rintro ⟨rfl, rfl⟩
    rw [Machine.offset_nat]
    omega

/-- Settles O14: division with remainder by 40 inverts `X + Y*40`. -/
theorem offsetsNumberTheCells : Obligations.OffsetsNumberTheCells := by
  refine ⟨fun x y hin => ⟨?_, Nat.le_of_lt_succ (Machine.offset_lt hin)⟩, fun off hoff => ?_⟩
  · obtain ⟨hx, -, hy, -⟩ := Machine.inbounds_iff.mp hin
    rw [Machine.offset_cast hx hy, Int.mul_comm]
  · exact ⟨_, _, (inbounds_and_offset_iff hoff).mpr ⟨rfl, rfl⟩, fun x' y' => (inbounds_and_offset_iff hoff).mp⟩

/-- A word's two's complement value. -/
theorem toInt_eq_toNat_sub (w : Word32) : w.toInt = (w.toNat : Int) - (if w.msb then 2 ^ 32 else 0) := by
  rw [BitVec.toInt_eq_msb_cond]
  split <;> simp

/-- A WRPT word carries its entry in `W0` and the two's complement coordinates in `W1` and `W2` (R59). -/
theorem decode_wrpt_iff {c : Command} {x y : Int} {e : Entry} : decode c = .ok (.wrpt x y e) ↔
    c.w0 = 0#24 ++ e ++ 0x8#4 ∧
      x = (c.w1.toNat : Int) - (if c.w1.msb then 2 ^ 32 else 0) ∧
      y = (c.w2.toNat : Int) - (if c.w2.msb then 2 ^ 32 else 0) := by
  rw [← toInt_eq_toNat_sub, ← toInt_eq_toNat_sub]
  exact decode_ok_iff

/-- A CLEAR word carries its entry in `W0` and nothing else (R58). -/
theorem decode_clear_iff {c : Command} {e : Entry} : decode c = .ok (.clear e) ↔ c.w0 = 0#24 ++ e ++ 0x9#4 :=
  decode_ok_iff.trans (and_iff_left trivial)

theorem mem_cellsInOrder {p : Nat × Nat} : p ∈ cellsInOrder ↔ p.1 < 40 ∧ p.2 < 25 := by
  obtain ⟨x, y⟩ := p
  simp [cellsInOrder, and_comm]

theorem cellsInOrder_length : cellsInOrder.length = 1000 := by
  simpa using congrArg List.length Machine.cellsInOrder_offsets

end Sys2Proof

namespace Sys2Proof.Machine

/-! ### The writes of one command (R85, R87, R88, R92) -/

/-- The byte writes a command issues, in order (R92). -/
def commandWrites (c : Config) : Instr → List Host.Cell
  | .wrpt x y e => pointWrites c x y e
  | .clear e => clearWrites c e
  | _ => []

section command
variable {i : Instr} {s t : State} (h : exec i s = .next t)
include h

theorem exec_writePort : t.writePort = commandWrites s.config i := by
  cases i with
  | wrpt x y e =>
    obtain ⟨-, rfl⟩ := complete_next_iff.mp h
    rfl
  | clear e =>
    obtain ⟨-, rfl⟩ := complete_next_iff.mp h
    rfl
  | _ =>
    obtain ⟨-, rfl⟩ := respond_next_iff.mp h
    rfl

theorem exec_inputs : t.inputs = s.inputs := by
  obtain ⟨-, m, ws, v, rfl, -⟩ := exec_next h
  rfl

/-- A command leaves the bytes it does not write as they were (R44). -/
theorem exec_read_of_not_written (hm : s.mem.wf) {a : Nat} (ha : ∀ p ∈ t.writePort, p.1 ≠ a) :
    t.mem.read a = s.mem.read a := by
  rw [exec_mem h hm]
  exact Memory.read_writeAll_of_forall_ne hm ha

/-- What the host will present next plays no part in a command (R112). -/
theorem exec_withInputs (ins : List Input) : exec i (s.withInputs ins) = .next (t.withInputs ins) := by
  cases i with
  | wrpt x y e =>
    obtain ⟨hs, rfl⟩ := complete_next_iff.mp h
    exact complete_of_admitted (s := s.withInputs ins) hs _ _ _
  | clear e =>
    obtain ⟨hs, rfl⟩ := complete_next_iff.mp h
    exact complete_of_admitted (s := s.withInputs ins) hs _ _ _
  | _ =>
    obtain ⟨hs, rfl⟩ := respond_next_iff.mp h
    exact respond_of_admitted (s := s.withInputs ins) hs _

end command

/-- A write point performs its writes, one pair commit or none, and answers `(OK, 0)` (R87). -/
theorem exec_wrpt_of_admitted {s : State} (hs : s.config.admitted = true) (x y : Int) (e : Entry) :
    exec (.wrpt x y e) s = .next (s.served (s.mem.writeAll (pointWrites s.config x y e))
      (pointWrites s.config x y e) ⟨.ok, 0⟩) :=
  complete_of_admitted hs _ _ _

/-- A write point out of bounds is dropped (R87). -/
theorem exec_wrpt_outside {s : State} (hs : s.config.admitted = true) {x y : Int} (e : Entry)
    (hout : x < 0 ∨ 40 ≤ x ∨ y < 0 ∨ 25 ≤ y) : exec (.wrpt x y e) s = .next (s.answering 0) := by
  have hin : inbounds x y = false := by
    rw [Bool.eq_false_iff, ne_eq, inbounds_iff]
    omega
  rw [exec_wrpt_of_admitted hs, pointWrites_outside hin]
  rfl

/-- Settles O15: in bounds the command performs one pair commit, out of bounds no write. -/
theorem wrptCommitsOrDropsItsPoint : Obligations.WrptCommitsOrDropsItsPoint := by
  refine ⟨fun _ _ _ _ => decode_wrpt_iff, fun s x y e hs hm hx hx' hy hy' => ?_,
    fun _ _ _ e hs => exec_wrpt_outside hs e⟩
  have hin : inbounds x y = true := inbounds_iff.mpr ⟨hx, hx', hy, hy'⟩
  have hoff : offset x y ≤ 999 := Nat.le_of_lt_succ (offset_lt hin)
  obtain ⟨t, hexec⟩ := exec_of_admitted hs (.wrpt x y e)
  have hwrites : t.writePort = pairCommit s.config (offset x y) e :=
    (exec_writePort hexec).trans (pointWrites_inbounds hin)
  obtain ⟨hcolor, hglyph⟩ := Memory.read_writeAll_pairCommit hs hm hoff hoff e
  rw [← hwrites, ← exec_mem hexec hm, if_pos rfl] at hcolor hglyph
  refine ⟨t, hexec, (offsetsNumberTheCells.1 x y hin).1, exec_responseValue hexec, exec_config hexec, exec_inputs hexec,
    hwrites, hcolor, hglyph, fun a hac hag => exec_read_of_not_written hexec hm ?_⟩
  rw [hwrites]
  simpa [pairCommit] using ⟨hac.symm, hag.symm⟩

/-- Settles O16: the memory after CLEAR is the old one with both planes filled. -/
theorem clearFillsBothPlanes : Obligations.ClearFillsBothPlanes := by
  refine ⟨fun _ _ => decode_clear_iff, fun s e hs => ⟨_, complete_of_admitted hs _ _ _, rfl, rfl, rfl, clearWrites_eq,
    fun off hoff => ⟨?_, ?_⟩, fun a hcol hg => ?_⟩⟩
  · have hcol : inColorPlane s.config (s.config.colorBase + off) := inColorPlane_base_add hoff
    exact (clearMemory_read _).trans ((if_neg (not_inGlyphPlane_of_inColorPlane hs hcol)).trans (if_pos hcol))
  · exact (clearMemory_read _).trans (if_pos (inGlyphPlane_base_add hoff))
  · exact (clearMemory_read a).trans ((if_neg hg).trans (if_neg hcol))

/-- Settles O17: the block fills of CLEAR are its writes performed in order. -/
theorem clearIsAThousandPairCommits : Obligations.ClearIsAThousandPairCommits := fun _ _ _ hm hexec =>
  ⟨(exec_writePort hexec).trans clearWrites_eq, exec_mem hexec hm⟩

/-- CLEAR reaches every byte of both planes (R92). -/
theorem exists_mem_clearWrites {c : Config} {a : Nat} (e : Entry) (ha : inColorPlane c a ∨ inGlyphPlane c a) :
    ∃ v, (a, v) ∈ clearWrites c e := by
  simp only [mem_clearWrites, Prod.mk.injEq]
  rcases ha with ha | ha
  · exact ⟨_, a - c.colorBase, by omega, .inl ⟨by omega, rfl⟩⟩
  · exact ⟨_, a - c.glyphBase, by omega, .inr ⟨by omega, rfl⟩⟩

/-- Settles O19: the writes are those of the command, which the configuration alone decides. -/
theorem writeFootprintOfEveryCommand : Obligations.WriteFootprintOfEveryCommand := by
  refine ⟨fun i s t hm hexec => ⟨?_, fun a => exec_read_of_not_written hexec hm⟩,
    fun i s t s' t' hconfig hexec hexec' => exec_resp_writePort_of_config hexec hconfig hexec'⟩
  rw [exec_writePort hexec]
  cases i with
  | wrpt x y e => exact (pointWrites_length s.config x y e).symm.imp_right List.eq_nil_of_length_eq_zero
  | clear e => exact ⟨clearWrites_length, fun a => exists_mem_clearWrites e⟩
  | _ => rfl

/-! ### Runs of commands (R89 to R91, R112) -/

theorem Memory.writeAll_append (m : Memory) (ws ws' : List Host.Cell) :
    m.writeAll (ws ++ ws') = (m.writeAll ws).writeAll ws' :=
  List.foldl_append

/-- The commands, executed one after the other, lead from one state to another. -/
inductive Executes : List Instr → State → State → Prop
  | nil (s : State) : Executes [] s s
  | cons {i : Instr} {is : List Instr} {s u t : State} :
    exec i s = .next u → Executes is u t → Executes (i :: is) s t

theorem Executes.exists_of_admitted {s : State} (hs : s.config.admitted = true) (is : List Instr) :
    ∃ t, Executes is s t := by
  induction is generalizing s with
  | nil => exact ⟨s, .nil s⟩
  | cons i is ih =>
    obtain ⟨u, hexec⟩ := exec_of_admitted hs i
    obtain ⟨t, hrest⟩ := ih (exec_config hexec ▸ hs)
    exact ⟨t, .cons hexec hrest⟩

section run
variable {is : List Instr} {s t : State} (h : Executes is s t)
include h

theorem Executes.config : t.config = s.config := by
  induction h with
  | nil => rfl
  | cons hexec _ ih => exact ih.trans (exec_config hexec)

theorem Executes.inputs : t.inputs = s.inputs := by
  induction h with
  | nil => rfl
  | cons hexec _ ih => exact ih.trans (exec_inputs hexec)

/-- The writes of the commands are performed in the order of the commands (R47). -/
theorem Executes.mem (hm : s.mem.wf) : t.mem = s.mem.writeAll (is.flatMap (commandWrites s.config)) := by
  induction h with
  | nil => rfl
  | @cons i is s u t hexec _ ih =>
    calc t.mem
      _ = u.mem.writeAll (is.flatMap (commandWrites u.config)) := ih (exec_mem_wf hexec hm)
      _ = (s.mem.writeAll (commandWrites s.config i)).writeAll (is.flatMap (commandWrites s.config)) := by
        rw [exec_mem hexec hm, exec_writePort hexec, exec_config hexec]
      _ = s.mem.writeAll ((i :: is).flatMap (commandWrites s.config)) := by
        rw [List.flatMap_cons, Memory.writeAll_append]

/-- The pair at an offset is the last one committed there, and where none was, both bytes are as before (R90). -/
theorem Executes.pair (hm : s.mem.wf) {off : Nat} (hoff : off ≤ 999) :
    t.color off = ((lastCommit is off).map (·.setWidth 8)).or (s.color off) ∧
    t.glyph off = ((lastCommit is off).map fun _ => s.config.filledGlyph).or (s.glyph off) := by
  induction h with
  | nil => exact ⟨rfl, rfl⟩
  | cons hexec _ ih =>
    obtain ⟨hcolor, hglyph⟩ := ih (exec_mem_wf hexec hm)
    obtain ⟨hcolor', hglyph'⟩ := exec_pair hexec hm hoff
    rw [hcolor, hglyph, hcolor', hglyph', exec_config hexec, lastCommit, Option.map_or, Option.map_or, Option.or_assoc,
      Option.or_assoc]
    exact ⟨rfl, rfl⟩

theorem Executes.pair_of_commit (hm : s.mem.wf) {off : Nat} (hoff : off ≤ 999) {e : Entry}
    (hlast : lastCommit is off = some e) :
    t.color off = some (e.setWidth 8) ∧ t.glyph off = some s.config.filledGlyph := by
  simpa [hlast] using h.pair hm hoff

theorem Executes.pair_of_no_commit (hm : s.mem.wf) {off : Nat} (hoff : off ≤ 999) (hlast : lastCommit is off = none) :
    t.color off = s.color off ∧ t.glyph off = s.glyph off := by
  simpa [hlast] using h.pair hm hoff

/-- Presented on the command port, well-formed commands are executed one a step (R112), before what stands there
already. -/
theorem Executes.steps_eq (hwf : ∀ i ∈ is, i.wf = true) :
    steps is.length (s.withInputs (presented is ++ s.inputs)) = some t := by
  induction h with
  | nil s => rfl
  | @cons i is s u t hexec _ ih =>
    obtain ⟨hi, his⟩ := List.forall_mem_cons.mp hwf
    have hstep : step (s.withInputs (presented (i :: is) ++ s.inputs)) =
        .next (u.withInputs (presented is ++ s.inputs)) :=
      (step_present_encode hi (s.withInputs (presented is ++ s.inputs))).trans (exec_withInputs hexec _)
    rw [List.length_cons, steps, hstep, ← exec_inputs hexec]
    exact ih his

/-- Issued by the host one after the other, well-formed commands are executed. -/
theorem Executes.runHost_eq (hwf : ∀ i ∈ is, i.wf = true) : runHost (is.map .issue) s = .next t := by
  induction h with
  | nil s => rfl
  | cons hexec _ ih =>
    obtain ⟨hi, his⟩ := List.forall_mem_cons.mp hwf
    exact (runHost_cons_of_next rfl hi hexec).trans (ih his)

end run

/-- A run over well-formed commands at the head of the command port executes them and takes them off. -/
theorem steps_presented {s : State} {is : List Instr} {rest : List Input} (hs : s.config.admitted = true)
    (hwf : ∀ i ∈ is, i.wf = true) (hi : s.inputs = presented is ++ rest) :
    ∃ t, steps is.length s = some t ∧ Executes is (s.withInputs rest) t := by
  obtain ⟨t, hrun⟩ := Executes.exists_of_admitted (s := s.withInputs rest) hs is
  have hsteps := hrun.steps_eq hwf
  rw [State.withInputs_inputs, ← hi, State.withInputs_twice, State.withInputs_self] at hsteps
  exact ⟨t, hsteps, hrun⟩

/-- Settles O39: the program is executed, and each command's pair commits stand until the next at their offset. -/
theorem lastWriteWins : Obligations.LastWriteWins := by
  intro s is hs hm hwf hi
  obtain ⟨t, hsteps, hrun⟩ := steps_presented (rest := []) hs hwf (by rw [hi, List.append_nil])
  refine ⟨t, hsteps, hrun.inputs, hrun.config, fun off hoff => ?_⟩
  split
  · next e hlast => exact hrun.pair_of_commit hm hoff hlast
  · next hlast => exact hrun.pair_of_no_commit hm hoff hlast

/-- The low four bits of an ordinal in a wider word, as a colour byte holds it (R37), are the ordinal. -/
theorem lowNibble_setWidth_of_le (e : Entry) {w : Nat} (hw : 4 ≤ w) : (e.setWidth w).extractLsb' 0 4 = e := by
  rw [← BitVec.setWidth_eq_extractLsb' (by omega), BitVec.setWidth_setWidth_of_le e hw, BitVec.setWidth_eq]

/-- Settles O40: the commands so far are executed, their last pair commit stands, and the observer reads both planes. -/
theorem glyphAndColourAreObservedAsAPair : Obligations.GlyphAndColourAreObservedAsAPair := by
  intro s is later hs hm hwf hi
  obtain ⟨t, hsteps, hrun⟩ := steps_presented hs hwf (hi.trans List.map_append)
  refine ⟨t, hsteps, fun off e draw hoff hlast => ?_⟩
  obtain ⟨hcolor, hglyph⟩ := hrun.pair_of_commit hm hoff hlast
  have ht : t.config.admitted = true := hrun.config ▸ hs
  obtain ⟨hreadGlyph, -, hreadColor⟩ := observerReadsThePlanes t draw off ht hoff
  obtain ⟨v, hread, hlow, hasWritten, -⟩ := hreadColor _ hcolor
  rw [hreadGlyph, hglyph, hrun.config]
  exact ⟨rfl, v, hrun.config ▸ hread, hlow.trans (lowNibble_setWidth_of_le e (by decide)), hrun.config ▸ hasWritten⟩

/-- WRMANY is the issue of its write points (R68). -/
theorem expand_wrmany (points : List (Int × Int × Entry)) :
    (SourceLine.wrmany points).expand = (points.map fun p => Instr.wrpt p.1 p.2.1 p.2.2).map .issue := by
  rw [SourceLine.expand, List.map_map]
  rfl

/-- Settles O41: the host issues the write points, which are executed one after the other. -/
theorem wrmanyWritesItsPointsInOrder : Obligations.WrmanyWritesItsPointsInOrder := by
  intro s points hs hm hrange
  obtain ⟨t, hrun⟩ := Executes.exists_of_admitted hs (points.map fun p => .wrpt p.1 p.2.1 p.2.2)
  have hwf : ∀ i ∈ points.map fun p => Instr.wrpt p.1 p.2.1 p.2.2, i.wf = true :=
    List.forall_mem_map.mpr fun p hp => Bool.and_eq_true_iff.mpr (hrange p hp)
  refine ⟨t, expand_wrmany points ▸ hrun.runHost_eq hwf, hrun.inputs, ?_, fun off hoff => ?_⟩
  · rintro rfl
    cases hrun
    rfl
  · split
    · next e hlast => exact hrun.pair_of_commit hm hoff hlast
    · next hlast => exact hrun.pair_of_no_commit hm hoff hlast

/-! ### CLEAR as write points (R88, D17) -/

/-- The write points of every cell, in offset order. -/
def clearPoints (e : Entry) : List Instr := cellsInOrder.map fun p => .wrpt (p.1 : Int) (p.2 : Int) e

theorem clearPoints_length (e : Entry) : (clearPoints e).length = 1000 := by
  rw [clearPoints, List.length_map, cellsInOrder_length]

theorem clearPoints_wf (e : Entry) : ∀ i ∈ clearPoints e, i.wf = true := by
  refine List.forall_mem_map.mpr fun p hp => ?_
  obtain ⟨hx, hy⟩ := mem_cellsInOrder.mp hp
  exact Bool.and_eq_true_iff.mpr ⟨inS32_iff.mpr (by omega), inS32_iff.mpr (by omega)⟩

/-- Every cell is in bounds, so its write point issues CLEAR's pair commit there. -/
theorem clearPoints_writes (c : Config) (e : Entry) : (clearPoints e).flatMap (commandWrites c) = clearWrites c e := by
  rw [clearPoints, List.flatMap_map, clearWrites]
  refine List.flatMap_congr fun p hp => ?_
  obtain ⟨hx, hy⟩ := mem_cellsInOrder.mp hp
  exact pointWrites_inbounds (inbounds_iff.mpr ⟨by omega, by omega, by omega, by omega⟩)

/-- Settles O18: both memories are the old one with CLEAR's writes performed. -/
theorem clearEqualsAThousandWritePoints : Obligations.ClearEqualsAThousandWritePoints := by
  intro s t e hm hexec
  have hs := exec_admitted hexec
  obtain ⟨u, hsteps, hrun⟩ := steps_presented (s := s.withInputs (presented (clearPoints e))) (rest := []) hs
    (clearPoints_wf e) (List.append_nil _).symm
  rw [clearPoints_length] at hsteps
  refine ⟨u, hsteps, ?_⟩
  calc u.mem
    _ = s.mem.writeAll ((clearPoints e).flatMap (commandWrites s.config)) := hrun.mem hm
    _ = s.mem.writeAll t.writePort := by rw [clearPoints_writes, exec_writePort hexec]; rfl
    _ = t.mem := (exec_mem hexec hm).symm

end Sys2Proof.Machine


/-! Exceptions (spec/60_exceptions.md): every command completes with OK (R94, R96), an illegal command is answered and
refused (R95), and an idle step keeps the planes (R26, R106). -/

namespace Sys2Proof.Machine

/-- Settles O23: a command runs in an admitted configuration, and one that runs answers OK and keeps the configuration
and what is presented next. -/
theorem everyCommandCompletesWithOk : Obligations.EveryCommandCompletesWithOk := by
  intro i s hs
  obtain ⟨t, hexec⟩ := exec_of_admitted hs i
  obtain ⟨v, hresp⟩ := exec_resp hexec
  exact ⟨t, v, hexec, hresp, exec_config hexec, exec_inputs hexec⟩

/-- A run refuses an illegal command, with the reason and the answer RDQ gives (R95). -/
theorem runCommand_of_decode_error {c : Command} {why : DecodeError} (h : decode c = .error why) (s : State) :
    runCommand c s = .refused (.illegalCommand why illegalAnswer) := by
  simp only [runCommand, h]

/-- Settles O25: with the command taken off the port, RDQ serves it with `illegalAnswer` alone, and the run refuses it
with that answer. -/
theorem illegalCommandIsAnsweredAndRefused : Obligations.IllegalCommandIsAnsweredAndRefused := by
  intro s c why rest hs hinputs hdecode
  have hserve : serve c (s.withInputs rest) = .next ((s.withInputs rest).served s.mem [] illegalAnswer) :=
    serve_of_decode_error hdecode hs
  have hstep : step s = runCommand c (s.withInputs rest) := step_of_inputs_cons hinputs
  exact ⟨hserve, hstep.trans (runCommand_of_decode_error hdecode _)⟩

/-- Settles O32: with nothing presented the step is the idle one, which the gate lets through. -/
theorem idleKeepsThePlanes : Obligations.IdleKeepsThePlanes := fun _ hs hinputs =>
  (step_of_inputs_nil hinputs).trans (proceed_of_admitted hs)

end Sys2Proof.Machine


/-! Reset and hazards (spec/70_reset_and_hazards.md): no step changes the configuration (R109), commands run one at a
time in the order presented (R112), a reset between commands keeps the planes (R107), and the events that R110 and R114
leave without claims are refused. -/

namespace Sys2Proof.Machine

/-- Settles O21: an idle step and a reset touch the ports alone, and a command keeps the configuration. -/
theorem stepNeverChangesTheConfiguration : Obligations.StepNeverChangesTheConfiguration := by
  intro s t hstep
  rcases step_quiet_or_exec hstep with ⟨rest, rfl⟩ | ⟨i, rest, hexec⟩
  · rfl
  · calc t.config
      _ = (s.withInputs rest).config := exec_config hexec
      _ = s.config := State.withInputs_config s rest

/-- A run executes a legal command (R63). -/
theorem runCommand_of_decode_ok {c : Command} {i : Instr} (h : decode c = .ok i) (s : State) :
    runCommand c s = exec i s := by
  simp only [runCommand, h]

/-- A legal command at the head of the port is taken off it and executed (R112). -/
theorem step_of_command {s : State} {c : Command} {i : Instr} {rest : List Input}
    (hinputs : s.inputs = .command c :: rest) (hdecode : decode c = .ok i) :
    step s = exec i (s.withInputs rest) :=
  (step_of_inputs_cons hinputs).trans (runCommand_of_decode_ok hdecode _)

/-- A legal command put on the port is executed where it was put there. -/
theorem step_present_of_decode_ok {c : Command} {i : Instr} (hdecode : decode c = .ok i) (s : State) :
    step (s.present c) = exec i s :=
  step_of_command (State.present_inputs s c) hdecode

/-- A word that fits in the presented bits is the low part of the command, unchanged. -/
theorem commandOfTable_of_lt {nbits w : Nat} (hw : w < 2 ^ nbits) : commandOfTable nbits w = BitVec.ofNat 96 w :=
  congrArg (BitVec.ofNat 96) (Nat.mod_eq_of_lt hw)

/-- Settles O24: a legal command is taken off the port and executed, and `withFetchWord` puts a word of 32 bits there
as the command of that value. -/
theorem stepRunsTheDecodedCommand : Obligations.StepRunsTheDecodedCommand := by
  refine ⟨fun s c i rest hinputs hdecode => step_of_command hinputs hdecode, fun s w i hw hdecode => ?_⟩
  have hcommand : commandOfTable 32 w = BitVec.ofNat 96 w := commandOfTable_of_lt hw
  exact step_present_of_decode_ok (hcommand ▸ hdecode) s

/-- Settles O30: with the reset taken off the port the step is the idle one, which the gate lets through. -/
theorem resetBetweenCommandsKeepsThePlanes : Obligations.ResetBetweenCommandsKeepsThePlanes := fun s rest hs hinputs =>
  calc step s
    _ = resetBetween (s.withInputs rest) := step_of_inputs_cons hinputs
    _ = .next (s.withInputs rest).quiet := proceed_of_admitted hs

/-- Settles O31: each of the three events is taken off the port and refused by `accept`, whatever the configuration. -/
theorem runsOutsideTheModelAreRefused : Obligations.RunsOutsideTheModelAreRefused := fun _ _ _ _ _ =>
  ⟨fun hduring => step_of_inputs_cons hduring, fun hsecond => step_of_inputs_cons hsecond,
    fun hforeign => step_of_inputs_cons hforeign⟩

end Sys2Proof.Machine
